-- ==== Sys2Proof/Word.lean ====
section
/-! DEFINITION. The word types of the FX1024 (spec 00 R4, R6). -/

namespace Sys2Proof

/-- A byte. -/
abbrev Byte := BitVec 8

/-- A BAR0 register (R6). -/
abbrev Word := BitVec 32

/-- A 64-bit word of memory, of an engine register or of a register pair (R11). -/
abbrev Word64 := BitVec 64

end Sys2Proof
end

