-- ==== Sys2Proof/Syntax.lean ====
section
/-! DEFINITION. The commands the block takes: one constructor per row of spec/opcode_table.json, in its order.
The table gives its rows no operand fields; each constructor carries what the rule of the row needs (log 13). -/

namespace Sys2Proof

/-- The path an access comes by; each has its own `_HI` latch and held low halves (R11, R12, R405). -/
inductive Path
  | pcie
  | chain
  | supervisor
  | dma (e : Fin 4)
  | csr (e : Fin 96)
  deriving DecidableEq, Repr

/-- What the DEC-TED code says of a word read: good, corrected, or uncorrectable (R69, R313). -/
inductive Ecc
  | ok
  | ce
  | ue
  deriving DecidableEq, Repr

/-- What the code says of an HBM word (R329): good, corrected, uncorrectable, or a wrong word taken as corrected,
or a wrong word that passes undetected. -/
inductive HbmEcc
  | ok
  | ce
  | ue
  | miscorrected
  | undetected
  deriving DecidableEq, Repr

/-- How one instruction issues: the engine (e of R67), its guard (R58, R62), and what the code says of the fetched
word (R69) and of the microword it dispatches into (R313). -/
structure Iss where
  eng : Fin 96
  psel : Fin 8
  pinv : Bool
  fetch : Ecc
  ucode : Ecc
  deriving DecidableEq, Repr

/-- A general register g0-g31. -/
abbrev Gr := Fin 32

/-- The immediate types of R61. -/
inductive ImmTy
  | u32
  | s32
  | q1_31
  | q16_16
  deriving DecidableEq, Repr

/-- The FT operand (R60): absolute, relative, or a register. -/
inductive AtArg
  | absolute (t : BitVec 48)
  | relative (t : BitVec 48)
  | register (r : Gr)
  deriving DecidableEq, Repr

/-- The source of a vector issue (R60). -/
inductive VSrc
  | stored (index : BitVec 26)
  | apg (k : Fin 4)
  | literal (r : Gr)
  | starve
  deriving DecidableEq, Repr

/-- A posted value (R103): bit 0 of a register, or a constant. -/
inductive PostSrc
  | reg (ra : Gr)
  | const (b : Bool)
  deriving DecidableEq, Repr

/-- A 16-bit operand from a register or an immediate (VMASK, LVW). -/
inductive Src16
  | reg (ra : Gr)
  | imm (v : BitVec 16)
  deriving DecidableEq, Repr

/-- The source of AXI, AYI and ADI: a g register or one of the same file. -/
inductive ApgSrc
  | reg (ra : Gr)
  | own (k : Fin 4)
  deriving DecidableEq, Repr

/-- The form of a BAR0 request (R402). -/
inductive Req
  | dword
  | quad (hi : Word)
  | other
  deriving DecidableEq, Repr

/-- A bit of the Format Store that has flipped: word of the record and bit, 64 being the parity bit (R322). -/
abbrev Upset := List (Fin 64 × Fin 65)

/-- What the code says of one word of a port's sequence table or mask table (R253). -/
structure TabEcc where
  seq : Bool
  word : BitVec 12
  ecc : Ecc
  deriving DecidableEq, Repr

/-- A source that settles or clamps: the PPMU of a lane, or an SMU (R287, R288). -/
inductive Source
  | ppmu (n : Fin 64) (l : Fin 16)
  | smu (n : Fin 64)
  deriving DecidableEq, Repr

/-- What unmasks a vector (R409): its own mask bit, MSI-X Enable, or the Function Mask. -/
inductive Unmask
  | vector (v : Fin 256)
  | enable
  | functionMask
  deriving DecidableEq, Repr

/-- The commands. -/
inductive Instr
  -- module, reference and wafer time (chapters 02, 15)
  | resetNAssert
  | resetNRelease
  | refWarmFall
  | refWarmRise
  | refLost
  | refclkReturn
  | pllLock
  | wtcWrap
  | periodicBeacon
  | resync (p : Path)
  | cancel (p : Path)
  | resyncApply
  -- register access (chapter 00)
  | loReadLatch (p : Path) (a : BitVec 26)
  | loWriteHold (p : Path) (a : BitVec 26) (v : Word)
  | hiWritePair (p : Path) (a : BitVec 26) (v : Word)
  | registerWrite (p : Path) (a : BitVec 26) (q : Req) (v : Word)
  | lock (p : Path)
  -- engine control (chapter 03)
  | start (p : Path) (e : Fin 96)
  | stop (p : Path) (e : Fin 96)
  | stopNow (p : Path) (e : Fin 96)
  | suspend (p : Path) (e : Fin 96)
  | resume (p : Path) (e : Fin 96)
  | cont (p : Path) (e : Fin 96)
  | engineStopped (e : Fin 96)
  | sigCodeRead (p : Path) (e : Fin 96)
  | localMemoryWrite (p : Path) (e : Fin 96) (w : BitVec 16) (v : Word)
  | issuePastEnd (e : Fin 96)
  | undefinedInstruction (e : Fin 96) (w : Word64)
  | tagWriteback (e : Fin 96) (tag : Fin 16)
  -- FLOW
  | br (x : Iss) (off : Word)
  | brc (x : Iss) (ra : Gr) (md : BitVec 8) (off : Word)
  | loop (x : Iss) (c : Fin 8) (off : Word)
  | call (x : Iss) (off : Word)
  | callr (x : Iss) (ra : Gr)
  | brr (x : Iss) (ra : Gr)
  | ret (x : Iss)
  | ldc (x : Iss) (c : Fin 8) (ra : Gr) (ty : ImmTy) (imm : Word)
  | rdc (x : Iss) (rd : Gr) (c : Fin 8)
  -- INT
  | add (x : Iss) (rd ra rb : Gr)
  | sub (x : Iss) (rd ra rb : Gr)
  | and (x : Iss) (rd ra rb : Gr)
  | or (x : Iss) (rd ra rb : Gr)
  | xor (x : Iss) (rd ra rb : Gr)
  | andn (x : Iss) (rd ra rb : Gr)
  | shl (x : Iss) (rd ra rb : Gr)
  | shr (x : Iss) (rd ra rb : Gr)
  | sar (x : Iss) (rd ra rb : Gr)
  | rol (x : Iss) (rd ra rb : Gr)
  | mul (x : Iss) (rd ra rb : Gr)
  | mulhu (x : Iss) (rd ra rb : Gr)
  | mulhs (x : Iss) (rd ra rb : Gr)
  | min (x : Iss) (rd ra rb : Gr)
  | max (x : Iss) (rd ra rb : Gr)
  | minu (x : Iss) (rd ra rb : Gr)
  | maxu (x : Iss) (rd ra rb : Gr)
  | clz (x : Iss) (rd ra : Gr)
  | popc (x : Iss) (rd ra : Gr)
  | bfx (x : Iss) (rd ra : Gr) (lsb wm1 : BitVec 6)
  | bfi (x : Iss) (rd ra : Gr) (lsb wm1 : BitVec 6)
  | addi (x : Iss) (rd ra : Gr) (ty : ImmTy) (imm : Word)
  | subi (x : Iss) (rd ra : Gr) (ty : ImmTy) (imm : Word)
  | andi (x : Iss) (rd ra : Gr) (ty : ImmTy) (imm : Word)
  | ori (x : Iss) (rd ra : Gr) (ty : ImmTy) (imm : Word)
  | xori (x : Iss) (rd ra : Gr) (ty : ImmTy) (imm : Word)
  | andni (x : Iss) (rd ra : Gr) (ty : ImmTy) (imm : Word)
  | shli (x : Iss) (rd ra : Gr) (ty : ImmTy) (imm : Word)
  | shri (x : Iss) (rd ra : Gr) (ty : ImmTy) (imm : Word)
  | sari (x : Iss) (rd ra : Gr) (ty : ImmTy) (imm : Word)
  | roli (x : Iss) (rd ra : Gr) (ty : ImmTy) (imm : Word)
  | muli (x : Iss) (rd ra : Gr) (ty : ImmTy) (imm : Word)
  | mulhui (x : Iss) (rd ra : Gr) (ty : ImmTy) (imm : Word)
  | mulhsi (x : Iss) (rd ra : Gr) (ty : ImmTy) (imm : Word)
  | mini (x : Iss) (rd ra : Gr) (ty : ImmTy) (imm : Word)
  | maxi (x : Iss) (rd ra : Gr) (ty : ImmTy) (imm : Word)
  | minui (x : Iss) (rd ra : Gr) (ty : ImmTy) (imm : Word)
  | maxui (x : Iss) (rd ra : Gr) (ty : ImmTy) (imm : Word)
  | cmp (x : Iss) (pd : Fin 8) (ra rb : Gr) (mode : BitVec 3)
  | cmpi (x : Iss) (pd : Fin 8) (ra : Gr) (mode : BitVec 3) (ty : ImmTy) (imm : Word)
  | plog (x : Iss) (pd pa pb : Fin 8) (mode : BitVec 3)
  | sel (x : Iss) (rd ra rb : Gr) (p : Fin 8)
  | mvs (x : Iss) (wr : Bool) (r : Gr) (num : BitVec 8)
  | lih (x : Iss) (rd ra : Gr) (imm : Word)
  -- FIX
  | qadd (x : Iss) (rd ra rb : Gr)
  | qsub (x : Iss) (rd ra rb : Gr)
  | qmul (x : Iss) (rd ra rb : Gr)
  | qmulw (x : Iss) (rd ra rb : Gr)
  | qmac (x : Iss) (rd ra rb : Gr)
  | cmul (x : Iss) (rd ra rb : Gr)
  | cmac (x : Iss) (rd ra rb : Gr)
  | cmag2 (x : Iss) (rd ra : Gr)
  | qabs (x : Iss) (rd ra : Gr)
  | qneg (x : Iss) (rd ra : Gr)
  | shrr (x : Iss) (rd ra rb : Gr)
  | satw (x : Iss) (rd ra : Gr) (wm1 : BitVec 6)
  | phase (x : Iss) (rd ra : Gr)
  | sqrtu (x : Iss) (rd ra : Gr)
  | qaddi (x : Iss) (rd ra : Gr) (ty : ImmTy) (imm : Word)
  | qmuli (x : Iss) (rd ra : Gr) (ty : ImmTy) (imm : Word)
  | qmulwi (x : Iss) (rd ra : Gr) (ty : ImmTy) (imm : Word)
  | qmaci (x : Iss) (rd ra : Gr) (ty : ImmTy) (imm : Word)
  -- MEM
  | ld (x : Iss) (rd ra : Gr) (ty : ImmTy) (imm : Word) (ecc : Ecc)
  | st (x : Iss) (ra rb : Gr) (imm : Word)
  | ldh (x : Iss) (rd ra : Gr) (ty : ImmTy) (imm : Word) (ecc : HbmEcc)
  | sth (x : Iss) (rd ra rb : Gr) (imm : Word)
  | hbmStoreAck (e : Fin 96) (tag : Fin 16)
  -- TIME
  | atTarget (x : Iss) (pair : Bool) (arg : AtArg)
  | atLaunch (e : Fin 96)
  | tbegin (x : Iss) (ts : BitVec 6)
  | tend (x : Iss)
  | postv (x : Iss) (rd : Gr) (src : PostSrc) (line : BitVec 8)
  | postg (x : Iss) (rd : Gr) (src : PostSrc) (line : BitVec 6)
  | rdv (x : Iss) (rd ra : Gr) (current : Bool)
  | waitv (x : Iss) (rd ra : Gr)
  | bv (x : Iss) (ra : Gr) (val current : Bool) (off : Word)
  -- SYS
  | csr (x : Iss) (rd ra : Gr) (wr : Bool) (blk : BitVec 2) (off : BitVec 14)
  | sig (x : Iss) (sync : Bool) (code : BitVec 16)
  | fence (x : Iss) (inv : Bool)
  | dmak (x : Iss) (rd ra : Gr) (d : Fin 4) (c : Fin 16)
  | dmakAccept (e : Fin 96) (tag : Fin 16)
  | halt (x : Iss)
  -- VEC
  | vis (x : Iss) (ts : BitVec 6) (rep : BitVec 16) (src : VSrc) (ecc : Ecc)
  | vmatch (x : Iss) (ts : BitVec 6) (rep : BitVec 16) (src : VSrc) (ecc : Ecc) (hit : Option (BitVec 16))
  | vfail (x : Iss) (site : Fin 4) (any clr : Bool) (off : Word)
  | vstv (x : Iss) (ra : Gr)
  | vmask (x : Iss) (src : Src16)
  -- APG
  | axi (x : Iss) (k : Fin 4) (src : ApgSrc) (ty : ImmTy) (imm : Word)
  | ayi (x : Iss) (k : Fin 4) (src : ApgSrc) (ty : ImmTy) (imm : Word)
  | adi (x : Iss) (k : Fin 4) (src : ApgSrc) (ty : ImmTy) (imm : Word)
  | astep (x : Iss) (k : Fin 4) (pd : Fin 8) (mode : BitVec 3)
  | agal (x : Iss) (k base : Fin 4) (pd : Fin 8)
  | adgen (x : Iss) (k pair : Fin 4) (code : BitVec 3) (bg : Fin 4)
  | ainv (x : Iss) (k ka : Fin 4)
  | ard (x : Iss) (rd : Gr) (k : Fin 4) (mode : BitVec 3)
  -- MEAS
  | ppmu (x : Iss) (l : Fin 16) (mode range : BitVec 3)
  | mppmu (x : Iss) (rd : Gr) (l : Fin 16) (cur : Bool)
  | smuc (x : Iss) (ra : Gr) (mode : BitVec 2) (range : BitVec 3)
  | msmu (x : Iss) (rd : Gr) (cur : Bool)
  | madc (x : Iss) (rd : Gr) (entry : Fin 32)
  | tdca (x : Iss) (t : Fin 2)
  | tdcr (x : Iss) (rd : Gr) (t : Fin 2)
  -- LVL
  | lvw (x : Iss) (src : Src16) (en : Bool) (lane : Option (Fin 16)) (dac : BitVec 4)
  | lvr (x : Iss) (lane : Option (Fin 16)) (b : Bool)
  | lvq (x : Iss) (rd : Gr) (l : Fin 16) (dac : BitVec 4)
  -- WAVE
  | wplay (x : Iss) (seg : BitVec 10) (stepMode : Bool)
  | wjump (x : Iss) (seg : BitVec 10)
  | wstop (x : Iss) (now : Bool)
  | wstep (x : Iss)
  | wtone (x : Iss) (k : Fin 8) (par : BitVec 2) (imm : Word)
  | wmark (x : Iss) (rel sel lev : BitVec 4)
  -- READ
  | rint (x : Iss) (k : Fin 8) (fifo post glob : Bool) (line : BitVec 8)
  | rres (x : Iss) (rd : Gr)
  -- ACQ
  | aqstart (x : Iss) (demod : Bool) (c : Fin 8)
  | aqstop (x : Iss)
  | aqarm (x : Iss) (u : Fin 4)
  | aqmark (x : Iss) (code : BitVec 16)
  -- pattern fetch and pattern registers (chapter 05)
  | vectorFetch (n : Fin 64) (index : BitVec 26) (first cnt : BitVec 16) (ecc : HbmEcc)
  | starveCycle (n : Fin 64)
  | starveVecWrite (p : Path) (n : Fin 64) (v : Word64)
  | apgScrWrite (p : Path) (n : Fin 64) (w : Fin 16) (v : Word)
  | apgLmapWrite (p : Path) (n : Fin 64) (k : Fin 4) (l : Fin 16) (v : Word)
  | sitemapWrite (p : Path) (n : Fin 64) (v : Word)
  | periodRecordRead (n : Fin 64) (ts : BitVec 6) (up : Upset)
  -- fail capture and repair (chapter 07)
  | fail (n : Fin 64) (vcyc : BitVec 40) (uis : List (BitVec 16)) (lo hi : BitVec 16)
  | capture (n : Fin 64) (vcyc : BitVec 40) (ui : Fin 16) (lo hi : BitVec 16)
  | failRecordWrite (n : Fin 64) (ecc : Ecc)
  | bitmapUpdate (n : Fin 64) (ecc : HbmEcc)
  | ringReset (p : Path) (n : Fin 64)
  | fringSizeWrite (p : Path) (n : Fin 64) (v : Word)
  | fringRdWrite (p : Path) (n : Fin 64) (v : Word)
  | bmpClear (p : Path) (n : Fin 64) (k : Fin 4)
  | bmpClearDone (n : Fin 64) (k : Fin 4)
  | cellFail (u : Fin 16) (ecc : HbmEcc)
  | repairSearch (u : Fin 16) (ecc : HbmEcc)
  | clear (p : Path) (n : Fin 64) (k : Fin 4)
  | rauClearDone (n : Fin 64) (k : Fin 4)
  | seal (p : Path) (n : Fin 64) (k : Fin 4)
  | rauSealDone (n : Fin 64) (k : Fin 4)
  -- pins, Format Store and stand-in (chapters 06, 13)
  | ocTrip (n : Fin 64) (l : Fin 16)
  | ovTrip (n : Fin 64) (l : Fin 16)
  | pinStatClear (p : Path) (n : Fin 64) (l : Fin 16) (v : Word)
  | laneCfgWrite (p : Path) (n : Fin 64) (l : Fin 16) (v : Word)
  | commit (p : Path) (n : Fin 64) (ts : BitVec 6)
  | fmtLoad (p : Path) (n : Fin 64) (ts : BitVec 6) (up : Upset)
  | fmtCmdDone (n : Fin 64)
  | formatStoreWrite (p : Path) (n : Fin 64) (w : BitVec 13) (v : Word)
  | formatStoreRead (p : Path) (n : Fin 64) (w : BitVec 13) (up : Upset)
  | handoverRequest (n : Fin 64) (l : Fin 16)
  | prepareDone (n : Fin 64)
  | takeoverSwitch (n : Fin 64)
  | returnSwitch (n : Fin 64)
  | handoverDefer (n : Fin 64)
  -- TX ports (chapter 08)
  | toneWrite (p : Path) (n : Fin 32) (k : Fin 8) (r : Fin 4) (v : Word)
  | play (p : Path) (n : Fin 32)
  | playStep (p : Path) (n : Fin 32)
  | jump (p : Path) (n : Fin 32)
  | step (p : Path) (n : Fin 32)
  | stopEnd (p : Path) (n : Fin 32)
  | txStopNow (p : Path) (n : Fin 32)
  | txRequestArrival (n : Fin 32)
  | playDecisionPoint (n : Fin 32)
  | segmentBoundary (n : Fin 32) (ecc list env : Ecc)
  | tabDataAccess (p : Path) (n : Fin 32) (rx : Bool) (wr : Option Word)
  | tabSelWrite (p : Path) (n : Fin 32) (rx : Bool) (v : Word)
  | mkrouteWrite (p : Path) (n : Fin 32) (m : Fin 4) (v : Word)
  | markerEdge (n : Fin 32) (m : Fin 4) (level : Bool)
  -- RX ports (chapter 09)
  | demodWrite (p : Path) (n : Fin 32) (k : Fin 8) (r : Fin 3) (v : Word)
  | demodWinWrite (p : Path) (n : Fin 32) (k : Fin 8) (v : Word)
  | readoutResult (n : Fin 32) (k : Fin 8) (codes : List (BitVec 12)) (word : BitVec 11) (ecc : Ecc)
  | resDataRead (p : Path) (n : Fin 32)
  | resFlush (p : Path) (n : Fin 32)
  | arm (p : Path) (n : Fin 32) (units : BitVec 4)
  | aqStop (p : Path) (n : Fin 32)
  | aqRingReset (p : Path) (n : Fin 32)
  | rxCfgWrite (p : Path) (n : Fin 32) (v : Word)
  | aqSizeWrite (p : Path) (n : Fin 32) (v : Word)
  | triggerFire (n : Fin 32) (codes : List (BitVec 12)) (e : TabEcc)
  | holdoffEnd (n : Fin 32) (codes : List (BitVec 12)) (e : TabEcc)
  | maskViolation (n : Fin 32) (codes : List (BitVec 12)) (e : TabEcc)
  | acqRecordWrite (n : Fin 32)
  -- KLINK and decisions (chapter 10)
  | trainFrame (k : Fin 8) (f : BitVec 160)
  | alignDone (k : Fin 8)
  | emptyFrame (k : Fin 8) (f : BitVec 160)
  | timeFrame (k : Fin 8) (f : BitVec 160)
  | slotnumFrame (k : Fin 8) (f : BitVec 160)
  | resyncAtFrame (k : Fin 8) (f : BitVec 160)
  | resyncLoadFrame (k : Fin 8) (f : BitVec 160)
  | messageFrame (k : Fin 8) (f : BitVec 160)
  | delayFrame (k : Fin 8) (f : BitVec 160) (flight : BitVec 16)
  | failedFrame (k : Fin 8)
  | join (p : Path)
  | leave (p : Path)
  | recal (p : Path)
  | retrain (p : Path)
  | decCfgWrite (p : Path) (v : Word)
  | decLvOpWrite (p : Path) (r : Fin 16) (v : Word)
  | msgTx (p : Path) (v : Word)
  | msgRxRead (p : Path)
  | verdictSlotOpen
  | slotReduce
  | localResultVisible
  | upwardFrameLaunch
  | downwardFrameLaunch
  | globalResultVisible
  -- levels, PPMU, SMU, MADC (chapter 11)
  | lvlCodeWrite (p : Path) (n : Fin 64) (l : Fin 16) (d : Fin 9) (v : Word)
  | rangeWrite (p : Path) (n : Fin 64) (l : Fin 16) (v : Word)
  | lvlEnWrite (p : Path) (n : Fin 64) (l : Fin 16) (v : Word)
  | rangeSwitch (n : Fin 64) (l : Fin 16)
  | rangeCodesApply (n : Fin 64) (l : Fin 16)
  | rangeReconnect (n : Fin 64) (l : Fin 16)
  | lvlclrAssert
  | lvlclrRelease
  | supervisionCheck (n : Fin 64) (l : Fin 16) (d : Fin 9) (m1 m2 : BitVec 16)
  | ppmuWrite (p : Path) (n : Fin 64) (l : Fin 16) (v : Word)
  | settlingEnd (src : Source)
  | smuCfgWrite (p : Path) (n : Fin 64) (v : Word)
  | smuClampWrite (p : Path) (n : Fin 64) (v : Word)
  | smuRampDone (n : Fin 64)
  | senseFault (n : Fin 64)
  | run (p : Path) (n : Fin 64) (on : Bool)
  | kick (p : Path) (n : Fin 64) (entry : Fin 32)
  | madcTimerEvent (n : Fin 64)
  | madcEntryDue (n : Fin 64) (entry : Fin 32)
  | madcConversionStart (n : Fin 64) (settles : Bool)
  | madcResult (n : Fin 64) (samples : List (BitVec 18)) (clamped openWire : Bool)
  | mseqCommit (p : Path) (n : Fin 64) (entry : Fin 32) (hi : Word)
  | madcDataRead (p : Path) (n : Fin 64)
  | madcResRead (p : Path) (n : Fin 64) (entry : Fin 32)
  -- TDC (chapter 12)
  | tdcArm (p : Path) (n : Fin 64) (t : Fin 2)
  | disarm (p : Path) (n : Fin 64) (t : Fin 2)
  | tdcStart (n : Fin 64) (t : Fin 2) (sub : BitVec 10)
  | tdcEdgeCount (n : Fin 64) (t : Fin 2) (sub : BitVec 10)
  | tdcStop (n : Fin 64) (t : Fin 2) (sub : BitVec 10)
  | tdcTimeout (n : Fin 64) (t : Fin 2)
  | tdcResultWrite (n : Fin 64) (t : Fin 2)
  | tdcResRead (p : Path) (n : Fin 64) (t : Fin 2)
  -- Microcode Store (chapter 13)
  | mcsLoad (p : Path)
  | reload (p : Path)
  | mcsLoadDone (ecc : HbmEcc) (readBackOk : Bool)
  -- HBM and DMA (chapter 14)
  | init (p : Path) (which : BitVec 4)
  | hbmFillDone (k : Fin 4)
  | patrolScrub (k : Fin 4) (ecc : HbmEcc)
  | bar2Read (a : BitVec 36) (bytes : Nat) (ecc : HbmEcc)
  | bar2Write (a : BitVec 36) (data : List (Option Byte)) (ecc : HbmEcc)
  | go (p : Path) (d : Fin 4) (c : Fin 16)
  | abort (p : Path) (d : Fin 4) (c : Fin 16)
  | dmaReset (p : Path) (d : Fin 4)
  | channelService (d : Fin 4)
  | descriptorTake (d : Fin 4) (c : Fin 16) (host : BitVec 256) (ecc : HbmEcc)
  | dmaBurst (d : Fin 4) (c : Fin 16) (host : List Byte) (ecc : HbmEcc)
  | preqAssert (d : Fin 4) (c : Fin 16)
  | busError (d : Fin 4) (cause : BitVec 4) (addr : Word64) (space : BitVec 2) (wr : Bool) (reads : BitVec 16)
  | dmaCompletionTimeout (d : Fin 4) (addr : Word64) (space : BitVec 2) (wr : Bool) (reads : BitVec 16)
  -- power and seasons (chapter 15)
  | pwrEnWrite (p : Path) (v : Word)
  | domainPowered (d : Fin 24)
  | domainPowerGone (d : Fin 24)
  | seasonCmdSummer (p : Path)
  | seasonCmdSpring (p : Path)
  | seasonCmdWinter (p : Path)
  | winterEntrySelfRefresh
  | autumnForceStop
  | autumnPowerDown
  | winterAccess (p : Path) (a : BitVec 37) (wr : Bool)
  | wake (p : Path)
  | touchdown
  | wakeStart
  | wakePowerUp
  | wakeHbmReady
  | wakeSpring
  | firmwareLoadDone (fw blob : List Byte) (ecc : HbmEcc)
  | hostGo (p : Path)
  | supplyLoss (vddhbm : Bool)
  | pwrGoodRise
  | vaonCollapse
  -- calibration (chapter 16)
  | calStart (u : Fin 1344)
  | calComplete (u : Fin 1344) (good : Bool)
  | req (p : Path)
  | save (p : Path)
  | saveDone (failed : List (Fin 1344))
  | calLoadDone (badWorking badFactory : List (Fin 1344))
  -- thermal (chapter 17)
  | thermalSample (readings : List (BitVec 16))
  | suspectClear (p : Path) (k : Fin 48)
  | throttleGapEnd (e : Fin 96)
  | aonSensorSample (reading : BitVec 16)
  -- faults (chapter 18)
  | faultArrival
  | faultAck (p : Path) (classes : BitVec 16)
  | faultStateEnd
  -- PCIe, MSI-X, Chain Port, Card Port (chapter 19)
  | functionLevelReset
  | pciePerst
  | linkDown
  | msixUnmask (u : Unmask)
  | chainSelectFall
  | chainFrameDiscard (count : BitVec 20) (frame : List Bool)
  | nop (count : BitVec 20)
  | read (count : BitVec 20) (addr : Word)
  | write (count : BitVec 20) (addr : Word) (data : List Word)
  | readFixed (count : BitVec 20) (addr : Word)
  | len80 (count : BitVec 20)
  | chainCommandDone
  | chnLenWrite (p : Path) (v : Word)
  | cardGo (p : Path)
  | cardTransactionDone (miso : List Bool)
  | cirLoad (p : Path)
  | cirLoadDone (copyA copyB : List Byte)
  | cirSave (p : Path)
  | td (p : Path)
  | cirWriteback
  | cirWritebackDone (good : Bool)
  | xipRead (p : Path) (w : BitVec 13) (flash : Word)
  | xipWrite (p : Path) (w : BitVec 13) (v : Word)
  | xipErase (p : Path) (v : Word)
  | xipStatusPoll (wip : Bool)
  | xipTimeout
  | pcieLinkUp (width : BitVec 6) (speed : BitVec 3) (bme : Bool)
  | rxAdcOverrange (n : Fin 32)
  | txSampleClip (n : Fin 32)
  | clampChange (src : Source) (on : Bool)
  deriving DecidableEq, Repr

end Sys2Proof
end

