-- ==== Sys2Proof/Config.lean ====
section
/-! DEFINITION. What the spec fixes for every FX1024-B0, and the free values: opaque constants without a body for what
it leaves open (logs 10 and 11). Nothing in Lean can say what they are. -/

namespace Sys2Proof

/-- R1. -/
def Config.glbId : Word := 0x0F1C1024
def Config.glbStep : Word := 0x000000B0

/-- R271: ticks of a verdict slot, of local visibility, and of a hop. -/
def Config.slotTicks : Nat := 10
def Config.dLocal : Nat := 24
def Config.hopTicks : Nat := 40

/-- A fresh free value: a miscorrected or undetected wrong HBM word (R329), a byte of the RAU's working state (R201).
Applied to a counter of the state, so each use is unrelated to every other. -/
opaque Config.freeWord : Nat → Word64

/-- R100: how far PHASE lies from the exact angle, an offset into ±257 units of 2^-32 turn (log 10). -/
opaque Config.phaseOffset : Word64 → Fin 515

/-- R315: the key hash held in fuses, word k as MCS_KEYHASH[k] shows it (log 11). -/
opaque Config.keyHash : Nat → Word

/-- R314: the fused minimum security version (log 11). -/
opaque Config.svnMinimum : BitVec 16

/-- R315: SHA-384 of a byte string, named by the spec and not defined by it (log 14). -/
opaque Config.sha384 : List Byte → BitVec 384

/-- R315: whether `(r, s)` is a valid ECDSA P-384 signature under the 97 key bytes over a digest (log 14). -/
opaque Config.ecdsaP384 : List Byte → BitVec 384 → List Byte → Bool

end Sys2Proof
end

