-- ==== Sys2Proof/Machine/Bits.lean ====
section
/-! DEFINITION. Bit fields, byte order (R4), sign, rounding (R99), the check codes of the spec, and the cosine and
sine of R206 and R234 in integers. -/

namespace Sys2Proof.Machine

/-- Bits `[lo + len - 1 : lo]` as a number. -/
def fld {n : Nat} (v : BitVec n) (lo len : Nat) : Nat := (v.toNat >>> lo) % 2 ^ len

/-- Bit `i`. -/
def bit {n : Nat} (v : BitVec n) (i : Nat) : Bool := v.getLsbD i

/-- `v` with bits `[lo + len - 1 : lo]` replaced by `x`. -/
def putf {n : Nat} (v : BitVec n) (lo len x : Nat) : BitVec n :=
  (v &&& ~~~(BitVec.ofNat n (2 ^ len - 1) <<< lo)) ||| (BitVec.ofNat n (x % 2 ^ len) <<< lo)

/-- `v` with bit `i` set to `b`. -/
def setb {n : Nat} (v : BitVec n) (i : Nat) (b : Bool) : BitVec n := putf v i 1 b.toNat

/-- A mask of `len` ones at `lo`. -/
def maskAt (n lo len : Nat) : BitVec n := BitVec.ofNat n (2 ^ len - 1) <<< lo

/-- The two halves of a 64-bit value (R11). -/
def loHalf (v : Word64) : Word := v.truncate 32
def hiHalf (v : Word64) : Word := (v >>> 32).truncate 32
def join64 (hi lo : Word) : Word64 := (hi ++ lo)

/-- Signed clamp, and whether it acted. -/
def clampTo (lo hi x : Int) : Int × Bool :=
  if x < lo then (lo, true) else if hi < x then (hi, true) else (x, false)

/-- R99: `x / 2^k` rounded half up. -/
def roundShift (x : Int) (k : Nat) : Int := (x + (if k = 0 then 0 else 2 ^ (k - 1))) / 2 ^ k

/-- Bytes of a value, the lowest address first (R4). -/
def bytesOf (n : Nat) (v : Nat) : List Byte := (List.range n).map (fun i => BitVec.ofNat 8 (v >>> (8 * i)))

/-- The value of bytes stored lowest address first (R4). -/
def ofBytes : List Byte → Nat
  | [] => 0
  | b :: t => b.toNat + 256 * ofBytes t

/-- Count of ones. -/
def popcount {n : Nat} (v : BitVec n) : Nat := (List.range n).countP (fun i => v.getLsbD i)

/-- Count of ones below bit `k`. -/
def onesBelow {n : Nat} (v : BitVec n) (k : Nat) : Nat := (List.range k).countP (fun i => v.getLsbD i)

/-- Leading zeros of a 64-bit value, 0-64. -/
def leadingZeros (v : Word64) : Nat := ((List.range 64).takeWhile (fun i => !v.getLsbD (63 - i))).length

/-- The bits of `v`, most significant first. -/
def msbBits {n : Nat} (v : BitVec n) : List Bool := (List.range n).map (fun i => v.getLsbD (n - 1 - i))

/-- One step of a CRC shifted most significant bit first. -/
def crcStep (n : Nat) (poly : BitVec n) (c : BitVec n) (b : Bool) : BitVec n :=
  if (c.getLsbD (n - 1)) ^^ b then (c <<< 1) ^^^ poly else c <<< 1

/-- CRC over bits taken most significant first, no reflection, no final XOR. -/
def crcBits (n : Nat) (poly : BitVec n) (bs : List Bool) : BitVec n := bs.foldl (crcStep n poly) 0

/-- R256: the CRC-16 of KLINK. -/
def crc16 (bs : List Bool) : BitVec 16 := crcBits 16 0x8BB7 bs

/-- R412: the CRC-8 of the Chain Port. -/
def crc8 (bs : List Bool) : BitVec 8 := crcBits 8 0x07 bs

/-- The eight bits of a byte, least significant first. -/
def lsbBits (b : Byte) : List Bool := (List.range 8).map (fun i => b.getLsbD i)

/-- R362: CRC-32 of IEEE 802.3, reflected, initial value and final XOR all ones. -/
def crc32 (bs : List Byte) : Word :=
  ~~~((bs.flatMap lsbBits).foldl
    (fun (c : Word) b => if (c.getLsbD 0) ^^ b then (c >>> 1) ^^^ 0xEDB88320 else c >>> 1) 0xFFFFFFFF)

/-- 2π scaled by 2^80. -/
def twoPi80 : Nat := 7595904947272677161575987

/-- The terms of the cosine series at `x` (scaled by 2^80), from term `t` of index `i`. -/
def cosTerms (x2 : Int) : Nat → Nat → Int → Int
  | 0, _, _ => 0
  | f + 1, i, t => t + cosTerms x2 f (i + 2) (-(t * x2 / 2 ^ 80) / ((i + 1 : Nat) * (i + 2 : Nat) : Nat))

/-- cos of `φ / 2^22` of a turn, scaled by 2^80, for `φ` up to a quarter turn. -/
def cosQuarter (φ : Nat) : Int :=
  let x : Int := ((twoPi80 * φ / 2 ^ 22 : Nat) : Int)
  cosTerms (x * x / 2 ^ 80) 20 0 (2 ^ 80)

/-- cos of `φ / 2^22` of a turn, scaled by 2^80. -/
def cos80 (φ : Nat) : Int :=
  let q := φ % 2 ^ 22
  if q ≤ 2 ^ 20 then cosQuarter q
  else if q ≤ 2 ^ 21 then - cosQuarter (2 ^ 21 - q)
  else if q ≤ 3 * 2 ^ 20 then - cosQuarter (q - 2 ^ 21)
  else cosQuarter (2 ^ 22 - q)

/-- R206, R234: `round(32,767 × cos α)` with `α = 2π φ / 2^22`, rounded half up. A quarter turn gives exactly 0. -/
def ncoCos (φ : Nat) : Int :=
  if φ % 2 ^ 22 = 2 ^ 20 ∨ φ % 2 ^ 22 = 3 * 2 ^ 20 then 0 else (2 * 32767 * cos80 φ + 2 ^ 80) / 2 ^ 81

/-- R206, R234: `round(32,767 × sin α)`: the cosine a quarter turn earlier. -/
def ncoSin (φ : Nat) : Int := ncoCos (φ + 3 * 2 ^ 20)

/-- atan(2^-i) as a fraction of a turn, scaled by 2^64, from `i = 0`. -/
def atanTable : List Nat :=
  [2305843009213693952, 1361218612134873190, 719230530580881038, 365092647525521947, 183254791493294829,
   91716730292036216, 45869556482713130, 22936177926750895, 11468263948075831, 5734153847876408,
   2867079658191483, 1433540170878135, 716770128161890, 358385069421298, 179192535378193,
   89596267772540, 44798133896700, 22399066949654, 11199533474990, 5599766737515,
   2799883368760, 1399941684380, 699970842190, 349985421095, 174992710548,
   87496355274, 43748177637, 21874088818, 10937044409, 5468522205,
   2734261102, 1367130551, 683565276, 341782638, 170891319,
   85445659, 42722830, 21361415, 10680707, 5340354,
   2670177, 1335088, 667544, 333772, 166886,
   83443, 41722, 20861, 10430, 5215,
   2608, 1304, 652, 326, 163,
   81, 41, 20, 10, 5]

/-- CORDIC vectoring: the angle of `(x, y)` with `x > 0`, scaled by 2^64 of a turn. -/
def cordic : List Nat → Nat → Int → Int → Int → Int
  | [], _, _, _, z => z
  | a :: t, i, x, y, z =>
    if y < 0 then cordic t (i + 1) (x - y / 2 ^ i) (y + x / 2 ^ i) (z - a)
    else cordic t (i + 1) (x + y / 2 ^ i) (y - x / 2 ^ i) (z + a)

/-- atan2 as a fraction of a turn scaled by 2^32, to within one unit. -/
def turn32 (re im : Int) : Int :=
  let h : Int := if re < 0 then 2 ^ 63 else 0
  let x := if re < 0 then -re else re
  let y := if re < 0 then -im else im
  if x = 0 then (if im > 0 then 2 ^ 30 else 3 * 2 ^ 30)
  else (h + cordic atanTable 0 (x * 2 ^ 40) (y * 2 ^ 40) 0 + 2 ^ 31) / 2 ^ 32

end Sys2Proof.Machine
end

