-- ==== Sys2Proof/Machine/Regs.lean ====
section
/-! DEFINITION. The BAR0 map (R18, chapter 21): which block an offset lies in, the registers of each block with the
bits a plain write reaches, and every reset value that is not 0. -/

namespace Sys2Proof.Machine

/-- A block of the BAR0 map (R437, R438). -/
inductive Blk
  | glb
  | time
  | dec
  | flt
  | thm
  | cal
  | dma (e : Nat)
  | ser
  | mcs
  | pe (n : Nat)
  | we (n : Nat)
  | pb (n : Nat)
  | rf (n : Nat)
  | mem (e : Nat)
  | fs (n : Nat)
  | hole
  deriving DecidableEq, Repr

/-- The block and the offset in it (chapter 21). -/
def blkOf (a : Nat) : Blk × Nat :=
  if a < 0x10000 then (.glb, a)
  else if a < 0x20000 then (.time, a % 0x10000)
  else if a < 0x30000 then (.dec, a % 0x10000)
  else if a < 0x40000 then (.flt, a % 0x10000)
  else if a < 0x50000 then (.thm, a % 0x10000)
  else if a < 0x60000 then (.cal, a % 0x10000)
  else if a < 0x70000 then (.dma ((a - 0x60000) / 0x4000), a % 0x4000)
  else if a < 0x80000 then (.ser, a % 0x10000)
  else if a < 0x90000 then (.mcs, a % 0x10000)
  else if a < 0x100000 then (.hole, a)
  else if a < 0x500000 then (.pe ((a - 0x100000) / 0x10000), a % 0x10000)
  else if a < 0x700000 then (.we ((a - 0x500000) / 0x10000), a % 0x10000)
  else if a < 0x800000 then (.pb ((a - 0x700000) / 0x4000), a % 0x4000)
  else if a < 0x900000 then (.rf ((a - 0x800000) / 0x8000), a % 0x8000)
  else if a < 0x1000000 then (.hole, a)
  else if a < 0x2800000 then (.mem ((a - 0x1000000) / 0x40000), a % 0x40000)
  else if a < 0x2A00000 then (.fs ((a - 0x2800000) / 0x8000), a % 0x8000)
  else (.hole, a)

/-- Bases of the blocks. -/
def timeA (o : Nat) : Nat := 0x10000 + o
def decA (o : Nat) : Nat := 0x20000 + o
def fltA (o : Nat) : Nat := 0x30000 + o
def thmA (o : Nat) : Nat := 0x40000 + o
def calA (o : Nat) : Nat := 0x50000 + o
def dmaA (e o : Nat) : Nat := 0x60000 + e * 0x4000 + o
def chA (e c o : Nat) : Nat := 0x60000 + e * 0x4000 + 0x100 + c * 0x40 + o
def serA (o : Nat) : Nat := 0x70000 + o
def mcsA (o : Nat) : Nat := 0x80000 + o
def peA (n o : Nat) : Nat := 0x100000 + n * 0x10000 + o
/-- The block of engine e of R67: PE e, or WE e − 64; the PE blocks and the WE blocks adjoin. -/
def engA (e o : Nat) : Nat := 0x100000 + e * 0x10000 + o
def pbA (n o : Nat) : Nat := 0x700000 + n * 0x4000 + o
def rfA (n o : Nat) : Nat := 0x800000 + n * 0x8000 + o
def memA (e o : Nat) : Nat := 0x1000000 + e * 0x40000 + o
def fsA (n o : Nat) : Nat := 0x2800000 + n * 0x8000 + o
def klA (p o : Nat) : Nat := 0x20000 + 0x100 + 32 * p + o
def tdcA (n t o : Nat) : Nat := 0x700000 + n * 0x4000 + 0x1400 + t * 0x40 + o

/-- Where an event counter's _SAT bit stands, by instance: register offset and its step, bit and its step (R13). -/
structure Sat where
  off : Nat
  step : Nat := 0
  bit : Nat
  bstep : Nat := 0
  deriving DecidableEq, Repr

/-- A row of a block's register table: offset, instances and steps, the bits a write sets (RW, or RWL), the bits a
write of 1 clears, the half of a pair it is (1 _LO, 2 _HI), and the counter it is. -/
structure Row where
  off : Nat
  n1 : Nat := 1
  s1 : Nat := 4
  n2 : Nat := 1
  s2 : Nat := 4
  rw : Nat := 0
  w1c : Nat := 0
  rwl : Bool := false
  half : Nat := 0
  cnt : Option Sat := none
  deriving DecidableEq, Repr

def glbRows : List Row :=
  [⟨0x000, 1, 4, 1, 4, 0, 0, false, 0, none⟩, { off := 0x004 }, { off := 0x008 }, { off := 0x00C, w1c := 0x80000060 },
   { off := 0x010 }, { off := 0x014 }, { off := 0x018, w1c := 0x1FF }, { off := 0x020, rw := 0xFFFFF8 },
   { off := 0x024 }, { off := 0x028, w1c := 0xFFFFFF }, { off := 0x030, rw := 3 }, { off := 0x034 }, { off := 0x038 },
   { off := 0x03C, cnt := some { off := 0x00C, bit := 31 } }, { off := 0x040, w1c := 0xC0000000 }, { off := 0x044 },
   { off := 0x048, rw := 0xFFFFFFC0, half := 1 }, { off := 0x04C, rw := 0xF, half := 2 },
   { off := 0x050, rw := 0xFFFFFFFC, half := 1 }, { off := 0x054, rw := 0xF, half := 2 },
   { off := 0x058, rw := 0x1FFFFF }, { off := 0x05C, rw := 0x3FFF }, { off := 0x060, rw := 7 }, { off := 0x1000 },
   { off := 0x1004, w1c := 0xFFFE0000 }, { off := 0x1008, rw := 0xFF }, { off := 0x100C, rw := 0xFFFFFFFF },
   { off := 0x1010, n1 := 4, cnt := some { off := 0x1004, bit := 28, bstep := 1 } },
   { off := 0x1020, n1 := 4, cnt := some { off := 0x1004, bit := 24, bstep := 1 } },
   { off := 0x1030, half := 1 }, { off := 0x1034, half := 2 }, { off := 0x1040, n1 := 4 },
   { off := 0x2000, w1c := 0xE }, { off := 0x2004 },
   { off := 0x3000, n1 := 256, s1 := 16, n2 := 3, rw := 0xFFFFFFFF }, { off := 0x300C, n1 := 256, s1 := 16, rw := 1 },
   { off := 0x4000, n1 := 8 }]

def timeRows : List Row :=
  [{ off := 0x000 }, { off := 0x004, w1c := 0x30288 }, { off := 0x008, rw := 3, rwl := true },
   { off := 0x010, half := 1 }, { off := 0x014, half := 2 }, { off := 0x018, rw := 0xFFFFFFFF, half := 1 },
   { off := 0x01C, rw := 0xFFFF, half := 2 }, { off := 0x020, rw := 0xFFFFFFFF, half := 1 },
   { off := 0x024, rw := 0xFFFF, half := 2 }, { off := 0x028, half := 1 }, { off := 0x02C, half := 2 },
   { off := 0x030, half := 1 }, { off := 0x034, half := 2 }, { off := 0x038, half := 1 }, { off := 0x03C, half := 2 },
   { off := 0x040, cnt := some { off := 0x004, bit := 16 } }, { off := 0x044, cnt := some { off := 0x004, bit := 17 } }]

def decRows : List Row :=
  [{ off := 0x000 }, { off := 0x004, w1c := 0xC0000F00 }, { off := 0x008, rw := 0xF7FF003F }, { off := 0x00C },
   { off := 0x010, rw := 0xFFFFFFFF, half := 1 }, { off := 0x014, rw := 0xFFFFFFFF, half := 2 },
   { off := 0x018, rw := 0xFFFFFFFF, half := 1 }, { off := 0x01C, rw := 0xFFFFFFFF, half := 2 },
   { off := 0x020, n1 := 8, rw := 0xFFFFFFFF }, { off := 0x040, n1 := 8, rw := 0xFFFFFFFF },
   { off := 0x060, half := 1 }, { off := 0x064, half := 2 }, { off := 0x068, half := 1 }, { off := 0x06C, half := 2 },
   { off := 0x070, half := 1 }, { off := 0x074, half := 2 }, { off := 0x080, cnt := some { off := 0x004, bit := 31 } },
   { off := 0x084, rw := 0xF }, { off := 0x090, rw := 0xFFFFFFFF, half := 1 }, { off := 0x094, rw := 0xF3F, half := 2 },
   { off := 0x098, half := 1 }, { off := 0x09C, half := 2 }, { off := 0x0A0, w1c := 1 },
   { off := 0x0A4, cnt := some { off := 0x004, bit := 30 } }, { off := 0x100, n1 := 8, s1 := 32, w1c := 0x80000300 },
   { off := 0x104, n1 := 8, s1 := 32, cnt := some { off := 0x100, step := 32, bit := 31 } },
   { off := 0x108, n1 := 8, s1 := 32, n2 := 2 }]

def fltRows : List Row :=
  [{ off := 0x000, w1c := 0x80000000 }, { off := 0x004, w1c := 0xFFFF }, { off := 0x008, w1c := 0xFFFF },
   { off := 0x00C, rw := 0xFFFF, rwl := true }, { off := 0x010, rw := 0xFFFF, rwl := true }, { off := 0x014, rw := 0x3F },
   { off := 0x018, cnt := some { off := 0x000, bit := 31 } }, { off := 0x01C, w1c := 0xFFFF },
   { off := 0x020, half := 1 }, { off := 0x024, half := 2 }, { off := 0x028 }, { off := 0x100, n1 := 16, s1 := 16 },
   { off := 0x104, n1 := 16, s1 := 16, half := 1 }, { off := 0x108, n1 := 16, s1 := 16, half := 2 },
   { off := 0x10C, n1 := 16, s1 := 16, cnt := some { off := 0x01C, bit := 0, bstep := 1 } }]

def thmRows : List Row :=
  [{ off := 0x000, w1c := 0x80000078 }, { off := 0x004, rw := 0xFFFF01FF, rwl := true }, { off := 0x008 },
   { off := 0x00C }, { off := 0x010, cnt := some { off := 0x000, bit := 31 } }, { off := 0x014, rw := 7 },
   { off := 0x100, n1 := 48, w1c := 0x80000000 }]

def calRows : List Row :=
  [{ off := 0x000 }, { off := 0x004, w1c := 0xC0000054 }, { off := 0x008, rw := 0x800001FF, rwl := true },
   { off := 0x00C, rw := 0xE00007FF }, { off := 0x010, cnt := some { off := 0x004, bit := 31 } },
   { off := 0x014, cnt := some { off := 0x004, bit := 30 } }, { off := 0x018, half := 1 }, { off := 0x01C, half := 2 },
   { off := 0x1000, n1 := 1088, cnt := some { off := 0x3000, step := 4, bit := 31 } },
   { off := 0x3000, n1 := 1344, w1c := 0xC0000000 }]

def dmaRows : List Row :=
  [{ off := 0x000 }, { off := 0x004 }, { off := 0x008, half := 1 }, { off := 0x00C, half := 2 }, { off := 0x010 },
   { off := 0x100, n1 := 16, s1 := 64 }, { off := 0x104, n1 := 16, s1 := 64, w1c := 0xC0001000 },
   { off := 0x108, n1 := 16, s1 := 64, rw := 0xFFFFFFE3, half := 1 },
   { off := 0x10C, n1 := 16, s1 := 64, rw := 0xFFFFFFFF, half := 2 }, { off := 0x110, n1 := 16, s1 := 64, half := 1 },
   { off := 0x114, n1 := 16, s1 := 64, half := 2 }, { off := 0x118, n1 := 16, s1 := 64 },
   { off := 0x11C, n1 := 16, s1 := 64, cnt := some { off := 0x104, step := 64, bit := 31 } },
   { off := 0x120, n1 := 16, s1 := 64, cnt := some { off := 0x104, step := 64, bit := 30 } }]

def serRows : List Row :=
  [{ off := 0x000, rw := 0x1FFF }, { off := 0x004, rw := 0xFFFFF }, { off := 0x008, w1c := 0x8000001E },
   { off := 0x00C }, { off := 0x010, cnt := some { off := 0x008, bit := 31 } }, { off := 0x100 },
   { off := 0x104, rw := 0xFFF37F }, { off := 0x108, w1c := 0x8000010A }, { off := 0x10C, rw := 1, rwl := true },
   { off := 0x110, rw := 0x1FF }, { off := 0x114 }, { off := 0x118, w1c := 0xC0000000 }, { off := 0x120, half := 1 },
   { off := 0x124, half := 2 }, { off := 0x128, n1 := 3 }, { off := 0x200, n1 := 128, rw := 0xFFFFFFFF },
   { off := 0x400, n1 := 128 }, { off := 0x8000, n1 := 0x2000 }]

def mcsRows : List Row :=
  [{ off := 0x000 }, { off := 0x004, w1c := 0xE0000000 }, { off := 0x008 }, { off := 0x00C },
   { off := 0x010, rw := 0xFFFFFFC0, half := 1 }, { off := 0x014, rw := 0xF, half := 2 }, { off := 0x018, rw := 0x1FFFF },
   { off := 0x01C }, { off := 0x020, cnt := some { off := 0x004, bit := 29 } }, { off := 0x030, n1 := 12 }]

def engRows : List Row :=
  [{ off := 0x000 }, { off := 0x004, w1c := 0xF0000 }, { off := 0x008, rw := 0x3FFF }, { off := 0x00C },
   { off := 0x010 }, { off := 0x014 }, { off := 0x018, cnt := some { off := 0x004, bit := 19 } }, { off := 0x01C, rw := 7 },
   { off := 0x020 }, { off := 0x024, cnt := some { off := 0x004, bit := 18 } },
   { off := 0x100, n1 := 32, s1 := 8, rw := 0xFFFFFFFF, half := 1 },
   { off := 0x104, n1 := 32, s1 := 8, rw := 0xFFFFFFFF, half := 2 }, { off := 0x200, n1 := 8, rw := 0xFFFFFFFF },
   { off := 0x220, rw := 0xFF }, { off := 0x224, rw := 7 }]

def peRows : List Row :=
  [{ off := 0x240, n1 := 4, rw := 0xFFFFFF }, { off := 0x250, n1 := 4, rw := 0xFFFFFF },
   { off := 0x260, n1 := 4, s1 := 8, rw := 0xFFFFFFFF, half := 1 },
   { off := 0x264, n1 := 4, s1 := 8, rw := 0xFFFFFFFF, half := 2 },
   { off := 0x1000, rw := 0xFFFFFFC0, half := 1 }, { off := 0x1004, rw := 0xF, half := 2 },
   { off := 0x1008, rw := 0x7FFFFFF }, { off := 0x1010, rw := 0xFFFFFFFF, half := 1 },
   { off := 0x1014, rw := 0xFFFFFFFF, half := 2 }, { off := 0x1018, rw := 1, w1c := 0x80000000 },
   { off := 0x101C, cnt := some { off := 0x1018, bit := 31 } }, { off := 0x1020, rw := 0xFFFFFFFF },
   { off := 0x1024, rw := 0xF }, { off := 0x1028 }, { off := 0x1100, n1 := 4, rw := 0x13 },
   { off := 0x1120, n1 := 4, s1 := 16, n2 := 4, rw := 0xFFFFFF },
   { off := 0x1160, n1 := 4, s1 := 8, rw := 0xFFFFFFFF, half := 1 },
   { off := 0x1164, n1 := 4, s1 := 8, rw := 0xFFFFFFFF, half := 2 }, { off := 0x1180, n1 := 16, rw := 0xFFFFFFFF },
   { off := 0x1200, n1 := 4, s1 := 64, n2 := 16, rw := 0xFF0F },
   { off := 0x1800, n1 := 64, s1 := 8, rw := 0xFFFFFFFF, half := 1 },
   { off := 0x1804, n1 := 64, s1 := 8, rw := 0xFFFFFFFF, half := 2 }, { off := 0x1A00 },
   { off := 0x1A04, w1c := 0x80000000 }, { off := 0x1A08, w1c := 0xF0000000 },
   { off := 0x1A0C, cnt := some { off := 0x1A08, bit := 28 } }, { off := 0x1C00, rw := 0xFFF00000, half := 1 },
   { off := 0x1C04, rw := 0xF, half := 2 }, { off := 0x1C08, rw := 0x1FFF }, { off := 0x1C0C },
   { off := 0x1C10, rw := 0x7FFFFFF }, { off := 0x1C14 }, { off := 0x1C18, rw := 0x3F },
   { off := 0x1C1C, w1c := 0xE000000E }, { off := 0x1C20, cnt := some { off := 0x1C1C, bit := 31 } },
   { off := 0x1C24, cnt := some { off := 0x1C1C, bit := 30 } }, { off := 0x1C28, cnt := some { off := 0x1C1C, bit := 29 } },
   { off := 0x1C2C }, { off := 0x1C40, n1 := 16, cnt := some { off := 0x1C90, bit := 0, bstep := 1 } },
   { off := 0x1C80, n1 := 4, cnt := some { off := 0x1C90, bit := 16, bstep := 1 } }, { off := 0x1C90, w1c := 0xFFFFF },
   { off := 0x1CA0, n1 := 4 }, { off := 0x1D00, n1 := 4, s1 := 16, rw := 0xFFFFFFC0, half := 1 },
   { off := 0x1D04, n1 := 4, s1 := 16, rw := 0xF, half := 2 }, { off := 0x1D08, n1 := 4, s1 := 16, rw := 0xFFFF1F1F },
   { off := 0x2000, n1 := 4, s1 := 64, rw := 0xBF3FFFFF }, { off := 0x2004, n1 := 4, s1 := 64, rw := 0x1F1F0F0F },
   { off := 0x2008, n1 := 4, s1 := 64, rw := 0xFFFFFFFF }, { off := 0x200C, n1 := 4, s1 := 64 },
   { off := 0x2010, n1 := 4, s1 := 64, rw := 0xFFFFFE00, half := 1 },
   { off := 0x2014, n1 := 4, s1 := 64, rw := 0xF, half := 2 }, { off := 0x2018, n1 := 4, s1 := 64 },
   { off := 0x201C, n1 := 4, s1 := 64, cnt := some { off := 0x2024, step := 64, bit := 31 } },
   { off := 0x2020, n1 := 4, s1 := 64, cnt := some { off := 0x2024, step := 64, bit := 30 } },
   { off := 0x2024, n1 := 4, s1 := 64, w1c := 0xC000000E }]

def pbRows : List Row :=
  [{ off := 0x000, n1 := 16, rw := 0xFFFF0003 }, { off := 0x040, n1 := 16, w1c := 0x300 }, { off := 0x080, rw := 0x1FFFF },
   { off := 0x084, w1c := 0xC0000000 }, { off := 0x088, cnt := some { off := 0x084, bit := 31 } },
   { off := 0x08C, cnt := some { off := 0x084, bit := 30 } }, { off := 0x400, n1 := 16, s1 := 64, n2 := 9, rw := 0xFFFF },
   { off := 0x800, n1 := 16, rw := 0x10001 }, { off := 0x840, n1 := 16, rw := 0x770 }, { off := 0x880, rw := 0x8000FFFF },
   { off := 0x884, rw := 0xFFFFFFFF, rwl := true }, { off := 0x888, w1c := 0xC0000000 }, { off := 0x88C },
   { off := 0x890, cnt := some { off := 0x888, bit := 30 } }, { off := 0xC00, rw := 0x30701 },
   { off := 0xC04, rw := 0xFFFFFFFF }, { off := 0xC08, rw := 0xFFFF007F }, { off := 0xC0C, w1c := 0xC },
   { off := 0x1000, rw := 0x1F03 }, { off := 0x1004, w1c := 0xC0000008 }, { off := 0x1008, rw := 0xFFFFFFFF },
   { off := 0x100C, rw := 0xFFFFFFFF }, { off := 0x1010, rw := 0x18FF }, { off := 0x1014 }, { off := 0x1018, rw := 0xFFFF },
   { off := 0x101C, cnt := some { off := 0x1004, bit := 31 } }, { off := 0x1020, cnt := some { off := 0x1004, bit := 30 } },
   { off := 0x1100, n1 := 32, s1 := 8, rw := 0xFFFFFFFF, half := 1 },
   { off := 0x1104, n1 := 32, s1 := 8, rw := 0xFFFFFFFF, half := 2 }, { off := 0x1200, n1 := 32, s1 := 8, half := 1 },
   { off := 0x1204, n1 := 32, s1 := 8, half := 2 }, { off := 0x1400, n1 := 2, s1 := 64 },
   { off := 0x1404, n1 := 2, s1 := 64 }, { off := 0x1408, n1 := 2, s1 := 64, rw := 0xFFFF8000 },
   { off := 0x140C, n1 := 2, s1 := 64, rw := 0xFFFF }, { off := 0x1410, n1 := 2, s1 := 64, rw := 0xFFFFFFFF, half := 1 },
   { off := 0x1414, n1 := 2, s1 := 64, rw := 0xFFFF, half := 2 },
   { off := 0x1418, n1 := 2, s1 := 64, rw := 0xFFFFFFFF, half := 1 },
   { off := 0x141C, n1 := 2, s1 := 64, rw := 0xFFFF, half := 2 },
   { off := 0x1420, n1 := 2, s1 := 64, rw := 0xFFFFFFFF, half := 1 },
   { off := 0x1424, n1 := 2, s1 := 64, rw := 0xFF, half := 2 }, { off := 0x1428, n1 := 2, s1 := 64, half := 1 },
   { off := 0x142C, n1 := 2, s1 := 64, half := 2 }, { off := 0x1430, n1 := 2, s1 := 64 }]

def rfRows : List Row :=
  [{ off := 0x000 }, { off := 0x004, w1c := 0xC00007E0 }, { off := 0x008, rw := 0x03FF0FFF }, { off := 0x00C },
   { off := 0x010, cnt := some { off := 0x004, bit := 31 } }, { off := 0x014, cnt := some { off := 0x004, bit := 30 } },
   { off := 0x020, n1 := 8, s1 := 16, rw := 0xFFFFFFFF, half := 1 },
   { off := 0x024, n1 := 8, s1 := 16, rw := 0xFFFF, half := 2 }, { off := 0x028, n1 := 8, s1 := 16, rw := 0xFFFFFFFF },
   { off := 0x02C, n1 := 8, s1 := 16, rw := 0xFFFF }, { off := 0x0C0, n1 := 4, rw := 0xC30003FF }, { off := 0x0D0 },
   { off := 0x100, rw := 3 }, { off := 0x104, rw := 0x3FFFF }, { off := 0x108, rw := 0xFFFFFFFF, half := 1 },
   { off := 0x10C, rw := 0xFFFFFFFF, half := 2 }, { off := 0x4000 }, { off := 0x4004, w1c := 0xF80001B8 },
   { off := 0x4008, rw := 5 }, { off := 0x400C, cnt := some { off := 0x4004, bit := 31 } },
   { off := 0x4010, cnt := some { off := 0x4004, bit := 30 } }, { off := 0x4014, cnt := some { off := 0x4004, bit := 29 } },
   { off := 0x4018, cnt := some { off := 0x4004, bit := 28 } }, { off := 0x401C, cnt := some { off := 0x4004, bit := 27 } },
   { off := 0x4020, n1 := 8 }, { off := 0x4040, n1 := 8, s1 := 16, rw := 0xFFFFFFFF, half := 1 },
   { off := 0x4044, n1 := 8, s1 := 16, rw := 0xFFFF, half := 2 }, { off := 0x4048, n1 := 8, s1 := 16, rw := 0xFFFFFFFF },
   { off := 0x404C, n1 := 8, s1 := 16, rw := 0x7F07FFFF },
   { off := 0x4100, n1 := 8, s1 := 32, n2 := 3, s2 := 8, rw := 0xFFFFFFFF },
   { off := 0x4104, n1 := 8, s1 := 32, n2 := 3, s2 := 8, rw := 0xFFFFFFFF },
   { off := 0x4118, n1 := 8, s1 := 32, rw := 0xFFFFF }, { off := 0x4200, n1 := 8, s1 := 16, rw := 0xFFF00000 },
   { off := 0x4204, n1 := 8, s1 := 16, rw := 0xFFFF }, { off := 0x4208, n1 := 8, s1 := 16, n2 := 2, rw := 0xFFFFFF },
   { off := 0x4280, rw := 0xFFF00000, half := 1 }, { off := 0x4284, rw := 0xFFFFFFFF, half := 2 },
   { off := 0x4288, rw := 0x80001FFF }, { off := 0x428C }, { off := 0x4290, rw := 0x7FFFFFF },
   { off := 0x4300, n1 := 4, s1 := 16, rw := 0xF8000000 }, { off := 0x4304, n1 := 4, s1 := 16, n2 := 2, rw := 0xFFFFFFFF },
   { off := 0x4400, rw := 3 }, { off := 0x4404, rw := 0x7FFF }, { off := 0x4408, rw := 0xFFFFFFFF, half := 1 },
   { off := 0x440C, rw := 0xFFFFFFFF, half := 2 }]

/-- The registers of a block (R437). The memory windows hold a word at every multiple of 4. -/
def rowsOf : Blk → List Row
  | .glb => glbRows
  | .time => timeRows
  | .dec => decRows
  | .flt => fltRows
  | .thm => thmRows
  | .cal => calRows
  | .dma _ => dmaRows
  | .ser => serRows
  | .mcs => mcsRows
  | .pe _ => engRows ++ peRows
  | .we _ => engRows
  | .pb _ => pbRows
  | .rf _ => rfRows
  | .mem _ => [{ off := 0, n1 := 0x10000, rw := 0xFFFFFFFF }]
  | .fs _ => [{ off := 0, n1 := 0x2000 }]
  | .hole => []

/-- The instance of a row that offset `o` names: its first index and its second. -/
def Row.at? (r : Row) (o : Nat) : Option (Nat × Nat) :=
  if r.off ≤ o then
    let i := if r.n2 = 1 then (o - r.off) / r.s1 else (o - r.off) / r.s1
    let m := (o - r.off) % r.s1
    if i < r.n1 ∧ m % r.s2 = 0 ∧ m / r.s2 < r.n2 then some (i, m / r.s2) else none
  else none

/-- The register at an offset of a block, with its instance. -/
def rowAt (rs : List Row) (o : Nat) : Option (Row × Nat) :=
  rs.findSome? (fun r => (r.at? o).map (fun ij => (r, ij.1)))

/-- Whether a BAR0 offset holds a register (R403, R437). -/
def isReg (a : Nat) : Bool := (rowAt (rowsOf (blkOf a).1) (blkOf a).2).isSome

/-- The last register of each block (chapter 21), where auto-increment stops (R415, R438). -/
def lastReg : Blk → Nat
  | .glb => 0x401C
  | .time => 0x044
  | .dec => 0x1EC
  | .flt => 0x1FC
  | .thm => 0x1BC
  | .cal => 0x44FC
  | .dma _ => 0x4E0
  | .ser => 0xFFFC
  | .mcs => 0x05C
  | .pe _ => 0x20E4
  | .we _ => 0x224
  | .pb _ => 0x1470
  | .rf _ => 0x440C
  | .mem _ => 0x3FFFC
  | .fs _ => 0x7FFC
  | .hole => 0

/-- A word of the default timing-set record (R166): PERIOD 8, NRZ, D1 and D3 enabled at offset 0. -/
def defaultRecord (w : Nat) : Word64 :=
  if w = 0 then 8
  else if w = 1 ∨ 50 ≤ w then 0
  else if (w - 2) % 3 = 2 then 0
  else 0x80000000

/-- The value a register holds until something is written to it: the Reset column of chapter 21. -/
def barReset (a : Nat) : Word :=
  match blkOf a with
  | (.glb, o) =>
    if o = 0x000 then Config.glbId else if o = 0x004 then Config.glbStep
    else if o = 0x00C then 1 else if o = 0x010 then 4
    else if o = 0x020 ∨ o = 0x024 then 0x00FFFFFF else if o = 0x060 then 7 else if o = 0x1008 then 0x18
    else if o = 0x100C then 0x400 else if 0x3000 ≤ o ∧ o < 0x4000 ∧ o % 16 = 12 then 1 else 0
  | (.dec, o) => if o = 0x084 then 0xF else 0
  | (.flt, o) =>
    if o = 0x00C then 0x2710 else if o = 0x010 then 0xFFFF else if o = 0x014 then 0x3E else 0
  | (.thm, o) =>
    if o = 0x004 then 0x07D00064 else if o = 0x00C then 0x100 else if o = 0x014 then 7 else 0
  | (.cal, o) => if o = 0x008 then 0x8000001E else 0
  | (.ser, o) => if o = 0x000 then 0x50 else if o = 0x104 then 3 else 0
  | (.mcs, o) =>
    if o = 0x008 then 0x01000000 else if o = 0x01C then Config.svnMinimum.zeroExtend 32
    else if 0x030 ≤ o ∧ o < 0x060 then Config.keyHash ((o - 0x030) / 4) else 0
  | (.we _, o) => if o = 0x01C then 7 else 0
  | (.pe n, o) =>
    if o = 0x01C then 7
    else if o = 0x1010 ∨ o = 0x1014 then 0x88888888
    else if 0x1100 ≤ o ∧ o < 0x1110 then BitVec.ofNat 32 ((o - 0x1100) / 4)
    else if 0x1120 ≤ o ∧ o < 0x1160 then (if o % 8 = 4 then 0x00FFFFFF else 0)
    else if 0x1180 ≤ o ∧ o < 0x11B0 then BitVec.ofNat 32 ((o - 0x1180) * 0x01010101 + 0x03020100)
    else if 0x1200 ≤ o ∧ o < 0x1300 then 6
    else if o = 0x1A04 then 0x700
    else if o = 0x1C00 then BitVec.ofNat 32 ((n % 16) * 0x10000000)
    else if o = 0x1C04 then BitVec.ofNat 32 (0xC + n / 16)
    else if o = 0x1C08 then 0x100 else if o = 0x1C18 then 1
    else if 0x1D00 ≤ o ∧ o < 0x1D40 ∧ o % 16 = 8 then 0x00010000
    else if 0x2000 ≤ o ∧ o < 0x2100 ∧ o % 64 = 8 then 0x00010000 else 0
  | (.pb _, o) =>
    if o = 0x080 then 0x000103E8 else if o = 0x880 then 0x80000030 else if o = 0x884 then 0x36DB3333
    else if o = 0xC08 then 0x1F400064 else if o = 0x1018 then 0x64 else 0
  | (.rf _, o) => if 0x4040 ≤ o ∧ o < 0x40C0 ∧ o % 16 = 12 then 0xF else 0
  | (.fs _, o) =>
    let w := defaultRecord (o % 0x200 / 8)
    if o % 8 = 0 then w.truncate 32 else (w >>> 32).truncate 32
  | _ => 0

/-- R343: the power-domain bit a register belongs to (R345); AON is 0. -/
def domainOf (a : Nat) : Nat :=
  match blkOf a with
  | (.glb, o) => if o < 0x100 then 0 else if o < 0x2000 then 1 else 2
  | (.time, o) => if o = 0x038 ∨ o = 0x03C then 0 else 1
  | (.dec, o) => if 0x100 ≤ o then 3 else 23
  | (.ser, o) => if o < 0x100 then 0 else 1
  | (.pb n, o) => if 0xC00 ≤ o ∧ o < 0x1000 then 20 else if 0x1000 ≤ o ∧ o < 0x1400 then 21 else 8 + n / 8
  | (.rf n, _) => 16 + n / 8
  | _ => 1

end Sys2Proof.Machine
end

