-- ==== Sys2Proof/Machine/Table.lean ====
section
/-! DEFINITION. The one container of the state: a sparse table keyed by numbers, in one canonical form. A key that is
not listed holds the table's default. HBM is such a table of bytes (a list of `Host.Cell`s). -/

namespace Sys2Proof.Machine

/-- A sparse table: keys strictly rising, no entry equal to what an unlisted key holds (`tableWf`). -/
abbrev Table (α : Type) := List (Nat × α)

/-- The value at key `k`; `d` gives what an unlisted key holds. -/
def tget {α : Type} (d : Nat → α) : Table α → Nat → α
  | [], k => d k
  | (j, v) :: t, k => if j = k then v else tget d t k

/-- The entry at `k`, written whatever its value. -/
def tput {α : Type} (k : Nat) (v : α) : Table α → Table α
  | [] => [(k, v)]
  | (j, w) :: t => if k < j then (k, v) :: (j, w) :: t else if k = j then (k, v) :: t else (j, w) :: tput k v t

/-- No entry at `k`. -/
def tdel {α : Type} (k : Nat) (t : Table α) : Table α := t.filter (fun e => !(e.1 == k))

/-- The table with `k` holding `v`: canonical again, so a value equal to the default leaves no entry. -/
def tset {α : Type} [DecidableEq α] (d : Nat → α) (t : Table α) (k : Nat) (v : α) : Table α :=
  if v = d k then tdel k t else tput k v t

/-- The canonical form: keys strictly rising and no entry at its default. -/
def tableWf {α : Type} [DecidableEq α] (d : Nat → α) : Table α → Bool
  | [] => true
  | [(k, v)] => v ≠ d k
  | (k, v) :: (j, w) :: t => (v ≠ d k) && decide (k < j) && tableWf d ((j, w) :: t)

end Sys2Proof.Machine
end

