-- ==== Sys2Proof/Machine/State.lean ====
section
/-! DEFINITION. The state of the block as plain data: every register of BAR0 in one table, HBM, and the state that
stands behind the registers. Each field names the rule that gives it. -/

namespace Sys2Proof.Machine

/-- Why a command stops the model. Raised by the meanings of commands with list operands, when a list has a length (or
an address an alignment) that no such command has. Safe: the hardware is never given such a command. -/
inductive Fault
  | illFormed (mnemonic : String)
  deriving DecidableEq, Repr

/-- Why the model refuses a command. Raised by no meaning: every row has its meaning. Safe. -/
inductive Refusal
  | notModelled (mnemonic : String)
  deriving DecidableEq, Repr

/-- STAT.STATE (R83). -/
inductive EngSt
  | stopped
  | running
  | suspended
  | sigWait
  | stopping
  deriving DecidableEq, Repr

/-- What an engine waits in: nothing, an AT target (R44), a WAITV (R105), or a throttling gap that ends at a tick
(R386). -/
inductive Wait
  | none
  | atTarget (t : BitVec 48) (pair : Bool)
  | verdict (vref : Word64) (rd : Gr)
  | gap (tick : Nat)
  deriving DecidableEq, Repr

/-- What a busy tag stands for (R73). -/
inductive TagWhy
  | exact (due : Nat)
  | average
  | store (stack : Fin 4)
  | dmak (d : Fin 4) (c : Fin 16) (word : BitVec 14)
  | madc
  | tdc (t : Fin 2)
  | rres
  deriving DecidableEq, Repr

/-- A busy tag: its destination, the value it will write once known, and what it waits for. -/
structure TagUse where
  rd : Gr
  val : Option Word64
  why : TagWhy
  deriving DecidableEq, Repr

/-- A line of an engine's data cache (R70): its number (byte address / 64) and its eight words. -/
structure DLine where
  line : Nat
  words : List Word64
  deriving DecidableEq, Repr

/-- One engine (R54–R88). -/
structure Eng where
  st : EngSt := .stopped
  resumeTo : EngSt := .running
  wait : Wait := .none
  pc : Nat := 0
  lastPc : Nat := 0
  g : Table Word64 := []
  c : Table Word := []
  preds : BitVec 8 := 1
  ax : Table (BitVec 24) := []
  ay : Table (BitVec 24) := []
  ad : Table Word64 := []
  flags : BitVec 3 := 0
  rs : List (BitVec 14) := []
  tags : List (Nat × TagUse) := []
  timed : Bool := false
  slot : Word := 0
  slotAt : Nat := 0            -- elapsed ticks: start of the next slot (PE), of slot 0 (WE)
  slotOff : Nat := 0           -- WE in SPRING: positions from that tick to the first sample edge (R75)
  ts : BitVec 6 := 0
  secLen : Nat := 0            -- ticks of the section's slots so far (PE), or its slots (WE)
  atTick : Option Nat := none  -- launch tick of an AT that was the last instruction (R45, R76)
  gapDone : Bool := false      -- the gap of the AT or TBEGIN about to issue has been inserted (R386)
  throttled : Bool := false    -- a gap precedes the section about to begin (R181)
  stopPend : Bool := false
  suspPend : Bool := false
  stopReason : Nat := 0        -- reason to record when a pending stop acts
  sigSync : Option (BitVec 16) := none
  sigQ : List (BitVec 16) := []
  hold : BitVec 16 := 0
  dcache : List DLine := []
  deriving DecidableEq, Repr

/-- How a vector in flight was issued (R112, R179, R187). -/
inductive VecKind
  | vis
  | vmatch
  | vmatchLast
  | starve
  deriving DecidableEq, Repr

/-- A run of vectors whose outcomes are not all visible yet: `n` repetitions from vector count `vcyc`. -/
structure VecIssue where
  vcyc : BitVec 40
  n : Nat
  rep0 : Nat
  pc : Nat
  ts : BitVec 6
  kind : VecKind
  apair : BitVec 2
  x : BitVec 24
  y : BitVec 24
  wtc : BitVec 48
  tick : Nat
  period : Nat
  strobe : Nat                 -- ticks from a vector's first tick to where its outcome is visible (R110)
  judged : BitVec 16           -- lanes whose compare is judged at all (R162)
  caps : BitVec 16             -- lanes whose C1 is enabled (R162)
  sites : BitVec 4
  vmask : BitVec 16
  fmts : Word64                -- the format codes of the record the periods took (R159, R169)
  vec : List Word64            -- the vector: its unit intervals of 16 symbols
  deriving DecidableEq, Repr

/-- A vector issue in progress (R74, R112, R142): the repetition to issue next, for VMATCH the first matching repetition
and the tick at which a match becomes visible, and the tick at which the last outcome does. -/
structure VisRun where
  pc : Nat
  ts : BitVec 6
  reps : Nat
  next : Nat := 0
  src : VSrc
  lit : Word64 := 0            -- the vector of a literal source, as its register held it at the issue
  isMatch : Bool := false
  hit : Option Nat := none
  matchVis : Option Nat := none
  lastVis : Nat := 0
  starving : Bool := false
  deriving DecidableEq, Repr

/-- A stored vector in the cache: block, number in the block, and its unit intervals (R133, R137); number 65536 stands for the
block's table entry (R141). -/
structure CVec where
  index : BitVec 26
  num : Nat
  uis : List Word64
  bad : Bool
  ahead : Bool := true         -- not issued since it was fetched
  deriving DecidableEq, Repr

/-- An entry of a record stream's queue: a record, or a beacon completed when it is written (R48–R50). -/
inductive QBody
  | record (r : BitVec 256)
  | beacon (reason : BitVec 4) (full prior : Word64)
  deriving DecidableEq, Repr

/-- A queued entry with the elapsed tick it is ordered by and the sites it names (R184). -/
structure QRec where
  tick : Nat
  full : Word64
  sites : BitVec 4
  body : QBody
  deriving DecidableEq, Repr

/-- A record stream: its queue and what its next beacon carries (R48, R50). -/
structure Stream where
  q : List QRec := []
  seq : BitVec 8 := 0
  recs : Word := 0
  last : Word64 := 0
  lost : Bool := false
  deriving DecidableEq, Repr

/-- A queued bitmap update: site, word address and bits (R191). -/
structure BmpUpd where
  site : Fin 4
  addr : Nat
  bits : Word64
  deriving DecidableEq, Repr

/-- A loop body held in the loop buffer (R139). -/
structure LoopBuf where
  lo : Nat
  hi : Nat
  vecs : List CVec
  deriving DecidableEq, Repr

/-- The record a COMMIT has replaced, which periods that begin before a tick still take (R169): its timing set, that tick,
words 0-49, and the first word that fails its parity check. -/
structure OldRec where
  ts : Nat
  until_ : Nat
  words : List Word64
  bad : Option Nat
  deriving DecidableEq, Repr

/-- One Pattern Engine beside its engine (chapters 05, 07). -/
structure Pe where
  sites : BitVec 4 := 0xF
  vmask : BitVec 16 := 0
  ffail : BitVec 4 := 0
  ffailNew : BitVec 4 := 0     -- flags set in tick ffailAt (R111)
  ffailAt : Nat := 0
  vcyc : BitVec 40 := 0
  inflight : List VecIssue := []
  visRun : Option VisRun := none
  vbtBase : Nat := 0
  vbtSize : Nat := 0
  vcache : List CVec := []
  seen : List (Nat × CVec) := []
  lbuf : Option LoopBuf := none
  ring : Stream := {}
  ringBase : Nat := 0
  ringN : Nat := 0
  bmpq : List BmpUpd := []
  lastTs : Option (BitVec 6) := none             -- last record read without error since START (R323)
  fmt : Option (BitVec 9) := none                -- the format command in progress (R168)
  oldRec : Option OldRec := none                 -- the record replaced last (R169)
  starveFrom : Option (Nat × Option (BitVec 6)) := none   -- the bank applies its Starve Vector from this tick (R82)
  siDue : Nat := 0                               -- the tick at which PREPARE or RETURN_PREPARE ends, or has ended (R172)
  siReq : Nat := 0                               -- the tick of the handover request (R176)
  deriving DecidableEq, Repr

/-- Outcome of a repair block (R202). -/
inductive RauOut
  | repair
  | notRepairable (reason : Nat)
  | timeout (reason : Nat)
  deriving DecidableEq, Repr

/-- One repair block (R195–R202). -/
structure Block where
  sr : Nat := 0
  sc : Nat := 0
  rows : List Nat := []
  cols : List Nat := []
  residue : List (Nat × Nat) := []
  dirty : Bool := false
  final : Option RauOut := none
  solRows : List Nat := []
  solCols : List Nat := []
  nodes : Nat := 0
  resid : Nat := 0
  deriving DecidableEq, Repr

/-- One site of a RAU (R198–R200). -/
structure RauSite where
  active : Bool := false
  isSealed : Bool := false
  sr : Nat := 0                -- SR and SC as CLEAR took them
  sc : Nat := 0
  blocks : Table Block := []
  deriving DecidableEq, Repr

/-- A cell fail on its way to the RAU: site number 4n + s, and its logical address (R194). -/
structure CellFail where
  site : Nat
  x : BitVec 24
  y : BitVec 24
  deriving DecidableEq, Repr

/-- One RAU: its queue and the site its rotation serves next (R197, R200). -/
structure Rau where
  q : List CellFail := []
  next : Nat := 0
  deriving DecidableEq, Repr

/-- One lane (R130, R156, R171, R281). -/
structure Lane where
  prev : Bool := false
  on : Bool := false
  quiet : Nat := 0
  q8from : Nat := 0            -- first ticks of the vectors at which the last quiet run reached 8, and of the last such
  q8to : Nat := 0
  step : Nat := 0              -- range change: 0 none, else the step of R281 reached
  t0 : Nat := 0
  written : Table Nat := []    -- tick of the last write of each DAC (R285)
  deriving DecidableEq, Repr

/-- One SMU: its force code, and the end of a ramp in progress (R289, R291). -/
structure Smu where
  force : Int := 0
  mode : BitVec 2 := 0
  range : BitVec 3 := 0
  rampEnd : Nat := 0
  deriving DecidableEq, Repr

/-- What an MADC request converts (R292, R294). -/
inductive MReq
  | entry (e : Fin 32) (tag : Option Nat)
  | ppmu (l : Fin 16) (cur : Bool) (tag : Nat)
  | smu (cur : Bool) (tag : Nat)
  deriving DecidableEq, Repr

/-- A request with its class and due tick (R292). -/
structure MWait where
  req : MReq
  cls : Nat
  due : Nat
  deriving DecidableEq, Repr

/-- A conversion in progress: its ticks, samples and scaling, and the flags taken at its start (R292, R296). -/
structure MConv where
  req : MReq
  finish : Nat
  avg : Nat
  shift : Nat
  ref : BitVec 2
  settling : Bool
  refNs : Bool
  deriving DecidableEq, Repr

/-- One MADC (R292–R298): the conversion in progress, the requests that wait in order of arrival, the starts whose
DELAY runs, the count of each entry's results, the reference last used, and the tick of the last timer event. -/
structure Madc where
  conv : Option MConv := none
  waiting : List MWait := []
  delayed : List MWait := []
  seqno : Table (BitVec 16) := []
  lastRef : BitVec 2 := 0
  timerAt : Nat := 0
  deriving DecidableEq, Repr

/-- STAT.STATE of a TDC (R309). -/
inductive TdcSt
  | idle
  | armed
  | started
  | done
  deriving DecidableEq, Repr

/-- One TDC (R300–R308): times in 1/1024 tick. -/
structure Tdc where
  st : TdcSt := .idle
  cfg : Word := 0
  nm1 : Nat := 0
  smatch : BitVec 48 := 0
  pmatch : BitVec 48 := 0
  tmo : Nat := 0
  armAt : Nat := 0
  started : Bool := false
  startAt : Nat := 0
  lastAt : Nat := 0
  count : Nat := 0
  refCold : Bool := false
  late : Bool := false
  ended : Option (Nat × Word64) := none   -- the tick and the word to write 16 ticks later
  word : Word64 := 0
  waiter : Option Nat := none
  deriving DecidableEq, Repr

/-- What follows a play (R220). -/
inductive Follow
  | stop
  | seg (s : BitVec 10)
  | again
  deriving DecidableEq, Repr

/-- A host command on its way to a TX port (R218, R219). -/
inductive TxCmd
  | play (seg : BitVec 10) (stepMode : Bool)
  | jump (seg : BitVec 10)
  | step
  | stopEnd
  | stopNow
  deriving DecidableEq, Repr

/-- STAT.STATE of a TX port (R230). -/
inductive TxSt
  | idle
  | playing
  | waiting
  | muted
  deriving DecidableEq, Repr

/-- What a setting that takes effect at a sample to come sets: a tone parameter, SCALE, a marker's route, the marker
overrides (R122, R123, R211, R229). -/
inductive TxPar
  | ftw (k : Fin 8) (hi : BitVec 16) (lo : Option Word)   -- with no low half held the current one stays (R12, R122)
  | poff (k : Fin 8) (v : Word)
  | amp (k : Fin 8) (v : BitVec 16)
  | scale (v : BitVec 2)
  | route (m : Fin 4) (v : Word)
  | mark (rel sel lev : BitVec 4)
  deriving DecidableEq, Repr

/-- A setting that takes effect at a sample; `last` marks those of the engine, which follow a host's of the same sample
(R211). -/
structure TxDue where
  pos : Nat
  last : Bool
  par : TxPar
  deriving DecidableEq, Repr

/-- One TX port (R205–R228). Positions are elapsed fifteenths of a tick. -/
structure TxPort where
  st : TxSt := .idle
  seg : BitVec 10 := 0
  plays : Nat := 0
  entry : List Word64 := []    -- the segment entry of the play in progress (R216)
  playAt : Nat := 0            -- first sample of the play in progress
  gridAt : Nat := 0            -- sample at which the port started: its granules count from here (R218)
  stepStart : Bool := false    -- step mode by PLAY_STEP or WPLAY (R226)
  stepFault : Bool := false    -- step mode by a fault state at the start (R226)
  req : Option (BitVec 10 × Nat) := none   -- the jump request held, and its arrival (R221)
  stopReq : Option Nat := none             -- the stop request held (R221)
  stopNow : Option Nat := none             -- the granule boundary at which the port stops (R219)
  decided : Option Follow := none
  trig : Option Nat := none    -- the step trigger held (R223)
  ovr : BitVec 4 := 0
  ovrLev : BitVec 4 := 0
  mark : BitVec 4 := 0         -- the marker levels after the edges so far (R229)
  slotStopped : Bool := false  -- a slot stop holds the markers low (R227)
  anchor : BitVec 48 := 0      -- the old count less the new while the port has not re-anchored (R209)
  anchorPend : Bool := false
  startAt : Option Nat := none -- a play that begins at a sample still to come (R92, R218, R223)
  ftwLo : List (Nat × Word) := []   -- FTW halves held by WTONE (R122)
  stage : List (Nat × Word64) := [] -- staged words of table entries: table and word address (R216)
  cmds : List (Nat × Path × TxCmd) := []
  scale : BitVec 2 := 0                       -- SCALE and the marker routes in effect (R211, R229)
  route : List Word := [0, 0, 0, 0]
  todo : List TxDue := []                     -- settings to come, in the order in which they apply
  deriving DecidableEq, Repr

/-- An open integration window (R236). Positions are elapsed thirtieths of a tick. -/
structure Win where
  tone : Fin 8
  start : Nat                  -- its first sample
  step : Nat                   -- from one sample to the next (R233)
  len : Nat
  wdiv : Nat
  rshift : Nat
  fifo : Bool
  post : Bool
  glob : Bool
  line : BitVec 8
  tag : BitVec 16
  full : Word64                -- Full Time of the tick that holds the first sample
  deriving DecidableEq, Repr

/-- One trigger unit (R247–R250). -/
structure TrigUnit where
  armed : Bool := false
  awaiting : Bool := false
  from_ : Nat := 0             -- the sample at which the arming takes effect
  cfg : Word := 0
  level : Int := 0
  hyst : Nat := 0
  lvl : Option Bool := none    -- level state of an edge unit: none is UNKNOWN
  state : Nat := 0
  t : Nat := 0
  c : Nat := 0
  armIdx : Option Nat := none  -- stream sample of the arming
  deriving DecidableEq, Repr

/-- A mark that waits for the data record it goes before (R245): its SIDX, SRC and the record. -/
structure Mark where
  sidx : Nat
  src : Nat
  bits : BitVec 256
  deriving DecidableEq, Repr

/-- A stream sample with its time (R242): index, raw code or I, Q, tick, Full Time and POS. -/
structure SSample where
  sidx : Nat
  i : Int
  q : Int
  tick : Nat
  full : Word64
  pos : Nat
  deriving DecidableEq, Repr

/-- The acquisition stream of a port (R242–R252). -/
structure Acq where
  run : Bool := false
  demod : Bool := false
  cfgNum : Fin 8 := 0
  cfg : Word := 0
  pre : Nat := 0
  post : Nat := 0
  hold : Nat := 0
  start : Nat := 0             -- position of the stream's first sample
  step : Nat := 3
  stopAt : Option Nat := none  -- the position from which no sample is taken
  inIdx : Nat := 0             -- input samples taken
  accI : Int := 0
  accQ : Int := 0
  first : Option SSample := none    -- the time of the stream sample being summed
  recent : List SSample := []       -- stream samples of the record being filled, oldest first
  hist : List SSample := []         -- the last stream samples, newest first, for the pre-trigger window
  winEnd : Option Nat := none       -- last sample of the window being written
  holdEnd : Option Nat := none      -- last sample of the holdoff
  maskFrom : Option Nat := none     -- marked sample of the mask test
  marks : List Mark := []           -- marks not yet written
  codes : List (Nat × BitVec 16) := []   -- AQMARK codes and the positions they wait for
  q : Stream := {}
  deriving DecidableEq, Repr

/-- What an RX port reads up to a position: the anchor (key 0), a register (its BAR0 offset) or a table word (2^30 and
its key) that changes there (R235, R236). -/
structure Old where
  until_ : Nat
  key : Nat
  val : Word64
  deriving DecidableEq, Repr

/-- One RX port (chapter 09). -/
structure RxPort where
  wins : List Win := []
  tagCnt : BitVec 16 := 0
  fifo : List (BitVec 256) := []
  stream : Stream := {}
  fifoOn : Bool := false       -- the stream of results is enabled: a START beacon has been written (R48, R241)
  rres : List Nat := []
  acq : Acq := {}
  units : Table TrigUnit := []
  old : List Old := []
  deriving DecidableEq, Repr

/-- A post (R103, R270): the slot it falls into, the line and the value. -/
structure Post where
  slot : BitVec 48
  glob : Bool
  line : Nat
  val : Bool
  deriving DecidableEq, Repr

/-- The result of a slot: 256 local or 64 global bits, and LOSS (R271–R273). -/
structure SlotRes where
  slot : BitVec 48
  bits : BitVec 256
  loss : Bool
  deriving DecidableEq, Repr

/-- A child's contribution to a global slot (R270, R271): `none` where its frame failed or carried LOSS. -/
structure Contrib where
  slot : BitVec 48
  port : Nat
  gv : Option Word64
  deriving DecidableEq, Repr

/-- DEC_STAT.NSTATE (R277). -/
inductive NState
  | detached
  | joining
  | joined
  deriving DecidableEq, Repr

/-- The decision fabric of the module (chapter 10). Slot `vsc + k` opens at elapsed tick `slotTick + 10k`. -/
structure Dec where
  nstate : NState := .detached
  timeSeen : Bool := false     -- JOINING: the TIME frame has come, and the SLOTNUM frame (R265)
  slotSeen : Bool := false
  resyncAt : Option Nat := none     -- the tick of the last resynchronisation (R266)
  vsc : BitVec 48 := 0
  slotTick : Nat := 0
  posts : List Post := []
  local_ : List SlotRes := []  -- stored local results, newest first (R272)
  glob : List SlotRes := []    -- stored global results, newest first
  down : List SlotRes := []    -- results received from upstream and not yet released
  contrib : List Contrib := []
  msgTx : List (BitVec 48) := []
  msgRx : List (BitVec 48) := []
  pairs : List (BitVec 48 × BitVec 48 × BitVec 16) := []  -- pairs T, L, EPOCH to send downward (R267)
  pairNext : Option (BitVec 48 × BitVec 16) := none       -- the RESYNC_LOAD that follows (R267)
  pairGot : Option (BitVec 48) := none                    -- a RESYNC_AT just received
  doneK : Table Nat := []      -- the slot index after the last at which each step of R271 was taken
  deriving DecidableEq, Repr

/-- One KLINK port beside its registers (R258–R262, R276). -/
structure Kl where
  st : BitVec 3 := 0
  good : Nat := 0
  bad : Nat := 0
  seq : Option (BitVec 5) := none   -- SEQ of the last frame received since ALIGN, and its tick
  seqAt : Nat := 0
  probes : Nat := 0            -- echoes received in CAL
  phase : Nat := 0             -- one-way flight at the last phase setting
  peerJoined : Bool := false
  peerLevel : BitVec 2 := 0
  peerDepth : BitVec 2 := 0
  peerEpoch : BitVec 16 := 0
  peerSig : BitVec 16 := 0
  peerHold : Bool := false
  echo : Option Word := none
  buf : List (BitVec 48) := []
  deriving DecidableEq, Repr

/-- An armed resynchronisation (R40): T, L, and the EPOCH a link correction carries (R267). -/
structure Armed where
  t : BitVec 48
  l : BitVec 48
  epoch : Option (BitVec 16)
  deriving DecidableEq, Repr

/-- CH_STAT.STATE (R336). -/
inductive ChSt
  | idle
  | queued
  | active
  | waiting
  | halted
  deriving DecidableEq, Repr

/-- Where a descriptor lies (R333, R335). -/
inductive DPlace
  | hbm (a : Nat)
  | host (a : Nat)
  | dmem (e : Fin 96) (w : Nat)
  deriving DecidableEq, Repr

/-- One DMA channel (R333–R341). -/
structure Chan where
  st : ChSt := .idle
  place : DPlace := .hbm 0
  desc : Option (BitVec 256) := none   -- handed over by DMAK, or read
  taken : Bool := false        -- the descriptor at hand has been read and checked
  cur : Option Word64 := none  -- address of the last descriptor taken
  moved : Nat := 0
  abort : Bool := false
  entries : Nat := 0           -- entries fixed for a peripheral burst (R339)
  deriving DecidableEq, Repr

/-- The sequence a season transition is in (R351, R353, R357). -/
inductive Phase
  | none
  | autumn1 (tick : Nat)
  | autumn3
  | winterEntry
  | wake (step : Nat)
  deriving DecidableEq, Repr

/-- The season state beside the GLB registers (chapter 15). -/
structure Seas where
  phase : Phase := .wake 0
  held : Bool := false
  aon : Int := 0               -- last always-on sensor reading, 0.1 °C (R356)
  cause : Nat := 0
  fclass : Nat := 0
  refPresent : Bool := true
  resetLow : Bool := false
  refsel : Bool := false
  refWarm : Bool := false
  lvlclr : Bool := false       -- LVLCLR_N in effect (R284)
  park3 : Bool := false        -- a level-3 reaction, AUTUMN or WINTER_ENTRY parks the lanes
  deriving DecidableEq, Repr

/-- A calibration unit (R369–R374). -/
structure CalUnit where
  due : Bool := false
  running : Bool := false
  again : Bool := false
  changed : Bool := false
  tlast : Int := 0
  ftime : Word64 := 0          -- Full Time of its last completed calibration
  deferred : Option Nat := none
  tried : Nat := 0             -- the tick after the last handover request for it (R371)
  deriving DecidableEq, Repr

/-- A record of CALNV (R375, R376): whether it was ever saved, whether it is good, its temperature and its saves. -/
structure CalRec where
  saved : Bool := false
  good : Bool := true
  tcal : Int := 0
  saves : Nat := 0
  ftime : Word64 := 0
  deriving DecidableEq, Repr

/-- A fault on its way to the collector (R391, R395, R431). -/
structure FaultRec where
  cls : Nat
  lvl : Nat
  kind : Nat
  idx : Nat
  info : Nat
  full : Word64
  tick : Nat
  deriving DecidableEq, Repr

/-- The Chain Port beside its registers (R410–R416). -/
structure Chain where
  len : Nat := 80
  total : Nat := 0
  selected : Bool := false
  busy : Bool := false
  status : BitVec 8 := 0
  addr : Word := 0
  data : List Word := []
  pending : List (BitVec 8 × Word × List Word) := []   -- responses of READ and WRITE not yet loaded, oldest first
  refused : Bool := false
  shift : List Bool := []
  deriving DecidableEq, Repr

/-- An item of the flash program queue (R419). -/
inductive XipItem
  | word (a : Nat) (v : Word)
  | erase (kind : BitVec 2) (a : Nat)
  deriving DecidableEq, Repr

/-- The Card Port beside its registers (R417–R423). -/
structure Card where
  goWaits : Bool := false
  xq : List XipItem := []
  xBusy : Option (Nat × Bool) := none    -- start tick and whether an erase runs
  copyB : Bool := false
  seqNo : BitVec 16 := 0
  cirLoading : Bool := false
  wbBusy : Bool := false
  wbDue : Bool := false
  deriving DecidableEq, Repr

/-- What the module sends out: the model's own record. -/
inductive Out
  | msix (v : Nat)
  | readData (p : Path) (v : Word)
  | bar2Data (bytes : List Byte)
  | poisoned (n : Nat)
  | hostWrite (a : Nat) (bytes : List Byte)
  | frame (port : Nat) (f : BitVec 160)
  | chain (frame : List Bool)
  | cardBits (cs : Nat) (bits : List Bool)
  | flash (bytes : List Byte)
  | cir (copyB : Bool) (bytes : List Byte)
  | markerPin (pin : Nat) (level : Bool)
  deriving DecidableEq, Repr

/-- The state of the block. -/
structure State where
  /-- The commands that wait, first in, first out. -/
  pending : List Instr
  /-- Every register, engine local memory and the Format Store, keyed by BAR0 byte offset (chapter 21). -/
  bar : Table Word
  /-- Parity bits of Format Store words, keyed by word offset in the region space (R322). -/
  fsPar : Table Bool
  /-- HBM, byte by byte (R326). -/
  hbm : List Host.Cell
  /-- Wave and receive tables, and staged entry words (R215, R216, R254). -/
  tabs : Table Word64
  /-- Elapsed ticks (R42). -/
  now : Nat
  wtc : BitVec 48
  epoch : BitVec 16
  armed : Option Armed
  /-- R11: the `_HI` latch of each path; R12: held low halves; R241: RES_DATA latches. -/
  latch : Table Word
  held : Table (Option Word)
  resLatch : Table (BitVec 256)
  engs : Table Eng
  pes : Table Pe
  raus : Table RauSite
  rauq : Table Rau
  lanes : Table Lane
  settle : Table Nat
  smus : Table Smu
  madcs : Table Madc
  tdcs : Table Tdc
  txs : Table TxPort
  rxs : Table RxPort
  dec : Dec
  kls : Table Kl
  /-- The verified copy (R318), and the Supervisor's copy of the image being loaded; `none` where it could not be read
  (R317). -/
  mcsCopy : Option (List Byte)
  mcsBuf : Option (List Byte)
  /-- What MCS_STAT.BUSY stands for: 0 nothing, 1 a load, 2 a re-verification (R316, R320). -/
  mcsJob : Nat
  chans : Table Chan
  filling : BitVec 4
  /-- Stacks whose corrected-read threshold has fired and whose count software has not cleared (R330). -/
  ceFired : BitVec 4
  seas : Seas
  glbLock : Bool
  /-- The configuration blob is being applied, so its entries act on RWL fields (R10). -/
  blob : Bool
  units : Table CalUnit
  calW : Table CalRec
  calF : Table CalRec
  thist : List (Nat × Int)
  faults : List FaultRec
  /-- Tick from which the quiet timer counts (R396). -/
  quietFrom : Nat
  chn : Chain
  card : Card
  busMaster : Bool
  msixEn : Bool
  msixMask : Bool
  outbox : List Out
  fresh : Nat
  deriving DecidableEq, Repr

/-- The state right after reset (R359, the Reset columns of chapter 21; values the spec gives nowhere: logs 6, 7, 8,
9, 12). An empty table is every key at its reset value. -/
def State.reset : State :=
  { pending := [], bar := [], fsPar := [], hbm := [], tabs := [], now := 0, wtc := 0, epoch := 0, armed := none,
    latch := [], held := [], resLatch := [], engs := [], pes := [], raus := [], rauq := [], lanes := [], settle := [],
    smus := [], madcs := [], tdcs := [], txs := [], rxs := [], dec := {}, kls := [], mcsCopy := none, mcsBuf := none, mcsJob := 0,
    chans := [], filling := 0, ceFired := 0, seas := {}, glbLock := false, blob := false, units := [], calW := [], calF := [],
    thist := [], faults := [], quietFrom := 0, chn := {}, card := {}, busMaster := false, msixEn := false,
    msixMask := false, outbox := [], fresh := 0 }

end Sys2Proof.Machine
end

