-- ==== Sys2Proof/Machine/Ops.lean ====
section
/-! DEFINITION. The named operations over the state: registers, memory, counters, latches, faults, interrupts and the
record streams' queues. -/

namespace Sys2Proof.Machine

/-! Registers -/

/-- The stored value of the register at a BAR0 offset. -/
def State.rd (s : State) (a : Nat) : Word := tget barReset s.bar a

/-- The register at a BAR0 offset, stored. -/
def State.wr (s : State) (a : Nat) (v : Word) : State := { s with bar := tset barReset s.bar a v }

/-- A field of a register. -/
def State.rdf (s : State) (a lo len : Nat) : Nat := fld (s.rd a) lo len

/-- A register with one field replaced. -/
def State.wrf (s : State) (a lo len x : Nat) : State := s.wr a (putf (s.rd a) lo len x)

/-- A bit of a register. -/
def State.tst (s : State) (a i : Nat) : Bool := bit (s.rd a) i

/-- A register with one bit put. -/
def State.put (s : State) (a i : Nat) (b : Bool) : State := s.wr a (setb (s.rd a) i b)

/-- A register with bits set. -/
def State.orr (s : State) (a : Nat) (m : Word) : State := s.wr a (s.rd a ||| m)

/-- A pair (R11), its low half at `a`. -/
def State.rd64 (s : State) (a : Nat) : Word64 := join64 (s.rd (a + 4)) (s.rd a)

/-- A pair, both halves. -/
def State.wr64 (s : State) (a : Nat) (v : Word64) : State := (s.wr a (loHalf v)).wr (a + 4) (hiHalf v)

/-- A change where a condition holds. -/
def State.iff (s : State) (b : Bool) (f : State → State) : State := if b then f s else s

/-- One change for each element of a list, from the left. -/
def State.each {α : Type} (s : State) (l : List α) (f : State → α → State) : State := l.foldl f s

/-! Instances -/

def State.eng (s : State) (e : Nat) : Eng := tget (fun _ => {}) s.engs e
def State.setEng (s : State) (e : Nat) (x : Eng) : State := { s with engs := tset (fun _ => {}) s.engs e x }
def State.modEng (s : State) (e : Nat) (f : Eng → Eng) : State := s.setEng e (f (s.eng e))

def State.pe (s : State) (n : Nat) : Pe := tget (fun _ => {}) s.pes n
def State.setPe (s : State) (n : Nat) (x : Pe) : State := { s with pes := tset (fun _ => {}) s.pes n x }
def State.modPe (s : State) (n : Nat) (f : Pe → Pe) : State := s.setPe n (f (s.pe n))

/-- Site s of PE n, keyed 4n + s. -/
def State.site (s : State) (k : Nat) : RauSite := tget (fun _ => {}) s.raus k
def State.setSite (s : State) (k : Nat) (x : RauSite) : State := { s with raus := tset (fun _ => {}) s.raus k x }

def State.rau (s : State) (u : Nat) : Rau := tget (fun _ => {}) s.rauq u
def State.setRau (s : State) (u : Nat) (x : Rau) : State := { s with rauq := tset (fun _ => {}) s.rauq u x }

/-- Lane l of Pin Bank n, keyed 16n + l. -/
def State.lane (s : State) (k : Nat) : Lane := tget (fun _ => {}) s.lanes k
def State.setLane (s : State) (k : Nat) (x : Lane) : State := { s with lanes := tset (fun _ => {}) s.lanes k x }
def State.modLane (s : State) (k : Nat) (f : Lane → Lane) : State := s.setLane k (f (s.lane k))

/-- Settling end of the PPMU of lane 16n + l, or of SMU n at 1024 + n, in elapsed ticks; 0 is none (R287). -/
def State.settleAt (s : State) (k : Nat) : Nat := tget (fun _ => 0) s.settle k
def State.setSettle (s : State) (k t : Nat) : State := { s with settle := tset (fun _ => 0) s.settle k t }

def State.smu (s : State) (n : Nat) : Smu := tget (fun _ => {}) s.smus n
def State.setSmu (s : State) (n : Nat) (x : Smu) : State := { s with smus := tset (fun _ => {}) s.smus n x }

def State.madc (s : State) (n : Nat) : Madc := tget (fun _ => {}) s.madcs n
def State.setMadc (s : State) (n : Nat) (x : Madc) : State := { s with madcs := tset (fun _ => {}) s.madcs n x }

/-- TDC t of bank n, keyed 2n + t. -/
def State.tdc (s : State) (k : Nat) : Tdc := tget (fun _ => {}) s.tdcs k
def State.setTdc (s : State) (k : Nat) (x : Tdc) : State := { s with tdcs := tset (fun _ => {}) s.tdcs k x }

def State.tx (s : State) (n : Nat) : TxPort := tget (fun _ => {}) s.txs n
def State.setTx (s : State) (n : Nat) (x : TxPort) : State := { s with txs := tset (fun _ => {}) s.txs n x }
def State.modTx (s : State) (n : Nat) (f : TxPort → TxPort) : State := s.setTx n (f (s.tx n))

def State.rx (s : State) (n : Nat) : RxPort := tget (fun _ => {}) s.rxs n
def State.setRx (s : State) (n : Nat) (x : RxPort) : State := { s with rxs := tset (fun _ => {}) s.rxs n x }
def State.modRx (s : State) (n : Nat) (f : RxPort → RxPort) : State := s.setRx n (f (s.rx n))

def State.kl (s : State) (p : Nat) : Kl := tget (fun _ => {}) s.kls p
def State.setKl (s : State) (p : Nat) (x : Kl) : State := { s with kls := tset (fun _ => {}) s.kls p x }
def State.modKl (s : State) (p : Nat) (f : Kl → Kl) : State := s.setKl p (f (s.kl p))

def State.modDec (s : State) (f : Dec → Dec) : State := { s with dec := f s.dec }

/-- Channel c of DMA e, keyed 16e + c. -/
def State.chan (s : State) (k : Nat) : Chan := tget (fun _ => {}) s.chans k
def State.setChan (s : State) (k : Nat) (x : Chan) : State := { s with chans := tset (fun _ => {}) s.chans k x }
def State.modChan (s : State) (k : Nat) (f : Chan → Chan) : State := s.setChan k (f (s.chan k))

def State.unit (s : State) (u : Nat) : CalUnit := tget (fun _ => {}) s.units u
def State.setUnit (s : State) (u : Nat) (x : CalUnit) : State := { s with units := tset (fun _ => {}) s.units u x }
def State.modUnit (s : State) (u : Nat) (f : CalUnit → CalUnit) : State := s.setUnit u (f (s.unit u))

/-- A calibration in progress is abandoned; the unit stays due (R368). -/
def State.calDrop (s : State) (u : Nat) : State :=
  if (s.unit u).running then s.modUnit u (fun x => { x with running := false }) else s

def State.modSeas (s : State) (f : Seas → Seas) : State := { s with seas := f s.seas }
def State.modCard (s : State) (f : Card → Card) : State := { s with card := f s.card }
def State.modChn (s : State) (f : Chain → Chain) : State := { s with chn := f s.chn }

/-- An entry of the port tables and their staging copies. -/
def State.tab (s : State) (k : Nat) : Word64 := tget (fun _ => 0) s.tabs k
def State.setTab (s : State) (k : Nat) (v : Word64) : State := { s with tabs := tset (fun _ => 0) s.tabs k v }

/-! HBM (R326): byte addresses in 64 GiB, a byte that nothing has written reads 0 (log 7) -/

/-- One byte of HBM. -/
def State.hbmB (s : State) (a : Nat) : Byte := tget (fun _ => 0) s.hbm a

/-- One byte of HBM, written. -/
def State.hbmSet (s : State) (a : Nat) (b : Byte) : State := { s with hbm := tset (fun _ => 0) s.hbm a b }

/-- Bytes written from an address upward. -/
def State.hbmPut (s : State) (a : Nat) : List Byte → State
  | [] => s
  | b :: t => (s.hbmSet a b).hbmPut (a + 1) t

/-- `n` bytes from an address upward. -/
def State.hbmGet (s : State) (a n : Nat) : List Byte := (List.range n).map (fun i => s.hbmB (a + i))

/-- The 64-bit word at a byte address (R4). -/
def State.hbmW (s : State) (a : Nat) : Word64 := BitVec.ofNat 64 (ofBytes (s.hbmGet a 8))

/-- A 64-bit word written at a byte address. -/
def State.hbmPutW (s : State) (a : Nat) (v : Word64) : State := s.hbmPut a (bytesOf 8 v.toNat)

/-- `[a, a + n)` filled with zeros: every listed byte of it removed. -/
def State.hbmZero (s : State) (a n : Nat) : State :=
  { s with hbm := s.hbm.filter (fun c => !(decide (a ≤ c.1) && decide (c.1 < a + n))) }

/-- The stack that holds a byte address (R326). -/
def stackOf (a : Nat) : Nat := a / 2 ^ 34

/-- R343: a power domain is on. -/
def State.dom (s : State) (d : Nat) : Bool := s.tst 0x024 d

/-- The HBM stacks' domains are bits 4 to 7 (R345). -/
def State.stackOn (s : State) (k : Nat) : Bool := s.dom (4 + k)

/-- GLB_SEASON.SEASON: 0 WINTER, 1 SPRING, 2 SUMMER, 3 AUTUMN, 4 WAKING, 5 WINTER_ENTRY (R366). -/
def State.season (s : State) : Nat := s.rdf 0x010 0 3

/-- A fresh free value, and the state that will not use it again. -/
def State.free (s : State) : Word64 × State := (Config.freeWord s.fresh, { s with fresh := s.fresh + 1 })

/-! Time stamps, output, faults, interrupts -/

/-- Full Time (R32, R34). -/
def State.full (s : State) : Word64 := (s.epoch ++ s.wtc)

/-- The low 40 bits of the WTC (TS40). -/
def State.ts40 (s : State) : Nat := s.wtc.toNat % 2 ^ 40

def State.emit (s : State) (o : Out) : State := { s with outbox := s.outbox ++ [o] }

/-- R395: faults of one class and tick are taken in ascending KIND, then INDEX; others in order of arrival. -/
def faultBefore (f r : FaultRec) : Bool :=
  r.tick == f.tick && r.cls == f.cls && (decide (f.kind < r.kind) || (f.kind == r.kind && decide (f.idx < r.idx)))

def faultInsert (f : FaultRec) : List FaultRec → List FaultRec
  | [] => [f]
  | r :: t => if faultBefore f r then f :: r :: t else r :: faultInsert f t

/-- A fault set on its way to the collector, with the Full Time of the event (R393, R431). -/
def State.raise (s : State) (cls lvl kind idx info : Nat) : State :=
  { s with faults := faultInsert ⟨cls, lvl, kind, idx, info, s.full, s.now⟩ s.faults }

/-! The fault classes (R390) -/
def clsEccC : Nat := 0
def clsEccU : Nat := 1
def clsMchk : Nat := 2
def clsIllegal : Nat := 3
def clsTiming : Nat := 4
def clsStream : Nat := 5
def clsLink : Nat := 6
def clsLevel : Nat := 7
def clsSmu : Nat := 8
def clsPin : Nat := 9
def clsTherm : Nat := 10
def clsCal : Nat := 11
def clsCard : Nat := 12
def clsDma : Nat := 13
def clsHost : Nat := 14
def clsCfg : Nat := 15

/-- KIND and INDEX of an engine (R391). -/
def engKind (e : Nat) : Nat := if e < 64 then 1 else 2
def engIdx (e : Nat) : Nat := if e < 64 then e else e - 64

/-- KIND and INDEX of the access path a refused write came by (R391; log 15). -/
def pathKind : Path → Nat × Nat
  | .pcie | .chain => (9, 0)
  | .supervisor => (8, 0)
  | .dma e => (5, e.val)
  | .csr e => (engKind e.val, engIdx e.val)

/-- A refused write or command: class CFG at level 0. -/
def State.cfgErr (s : State) (p : Path) : State := s.raise clsCfg 0 (pathKind p).1 (pathKind p).2 0

/-- R409: one occasion of vector v. It is sent, or held pending while the vector is masked or blocked; in WINTER and WAKING it
only sets its pending bit (R355). -/
def State.irq (s : State) (v : Nat) : State :=
  if s.season != 0 && s.season != 4 && s.msixEn && !s.msixMask && !s.tst (0x300C + 16 * v) 0 then s.emit (.msix v)
  else s.put (0x4000 + v / 32 * 4) (v % 32) true

/-! Event counters (R13): the count at `a`, its sticky _SAT bit at bit `i` of register `b` -/

def State.countN (s : State) (a b i n : Nat) : State :=
  let c := (s.rd a).toNat + n
  if c < 2 ^ 32 then s.wr a (BitVec.ofNat 32 c) else (s.wr a 0xFFFFFFFF).put b i true

def State.count (s : State) (a b i : Nat) : State := s.countN a b i 1

/-! Latches and held halves (R11, R12, R405): one latch per path, one held half per path and pair -/

def pathKey : Path → Nat
  | .pcie => 0
  | .chain => 1
  | .supervisor => 2
  | .dma e => 3 + e.val
  | .csr e => 7 + e.val

def State.setLatch (s : State) (p : Path) (v : Word) : State := { s with latch := tset (fun _ => 0) s.latch (pathKey p) v }
def State.getLatch (s : State) (p : Path) : Word := tget (fun _ => 0) s.latch (pathKey p)

/-- The low half a path holds for the pair whose _LO is at `a`. -/
def State.heldLo (s : State) (p : Path) (a : Nat) : Option Word :=
  tget (fun _ => none) s.held (pathKey p * 2 ^ 26 + a)
def State.holdLo (s : State) (p : Path) (a : Nat) (v : Option Word) : State :=
  { s with held := tset (fun _ => none) s.held (pathKey p * 2 ^ 26 + a) v }

/-- The whole pair that a write of its high half makes (R12): the held low half, else the current one. -/
def State.pairOf (s : State) (p : Path) (a : Nat) (hi : Word) : Word64 :=
  join64 hi ((s.heldLo p a).getD (s.rd a))

/-! Record streams (R48–R50, R184) -/

/-- Of two beacons of one tick, the reason that comes first in R48. -/
def beaconRank (r : BitVec 4) : Nat :=
  if r = 4 then 5 else if r = 5 then 4 else if r = 3 then 3 else if r = 2 then 2 else 1

/-- The order of the records of a tick: capture records come last (R185). -/
def QRec.key (r : QRec) : Nat :=
  match r.body with
  | .record b => 2 * r.tick + (decide (fld b 252 4 = 3)).toNat
  | .beacon _ _ _ => 2 * r.tick

/-- A record placed behind everything at or before its tick (R185, R49). -/
def qRecord (r : QRec) : List QRec → List QRec
  | [] => [r]
  | x :: t => if r.key < x.key then r :: x :: t else x :: qRecord r t

/-- A beacon placed before everything at or after its tick; of two beacons of one tick, one stays (R48, R49). -/
def qBeacon (b : QRec) (rank : QRec → Nat) : List QRec → List QRec
  | [] => [b]
  | x :: t =>
    if b.tick < x.tick then b :: x :: t
    else if b.tick = x.tick then
      (if rank x = 0 then b :: x :: t else if rank x < rank b then b :: t else x :: t)
    else x :: qBeacon b rank t

def recRank (r : QRec) : Nat :=
  match r.body with
  | .record _ => 0
  | .beacon k _ _ => beaconRank k

/-- A beacon record (R188, R50). -/
def beaconBits (reason : BitVec 4) (seq : BitVec 8) (recs : Word) (full prior : Word64) : BitVec 256 :=
  BitVec.ofNat 256 (2 * 2 ^ 252 + reason.toNat * 2 ^ 188 + seq.toNat * 2 ^ 180 + recs.toNat * 2 ^ 128
    + full.toNat * 2 ^ 64 + prior.toNat)

/-- The next beacon of a stream, completed as it is written: SEQ, RECS and PRIOR (R50). -/
def Stream.beacon (q : Stream) (reason : BitVec 4) (full prior : Word64) : BitVec 256 × Stream :=
  let seq := if reason = 4 then 0 else q.seq
  let prior' := if reason = 3 then prior else if reason = 4 then 0 else q.last
  (beaconBits reason seq q.recs full prior', { q with seq := seq + 1, recs := 0, last := full })

/-- A record counted in RECS, which saturates (R50). -/
def Stream.counted (q : Stream) : Stream := { q with recs := if q.recs = 0xFFFFFFFF then q.recs else q.recs + 1 }

/-- The bytes of a 256-bit record (R4). -/
def recBytes (r : BitVec 256) : List Byte := bytesOf 32 r.toNat

end Sys2Proof.Machine
end

