-- ==== Sys2Proof/Machine/Streams.lean ====
section
/-! DEFINITION. The three kinds of record stream: a PE's fail ring (R182–R185), an RX port's tagged result FIFO
(R241) and its acquisition stream (R245, R246). -/

namespace Sys2Proof.Machine

/-! Fail ring -/

/-- The ring in use: its base and its positions N. Until a ring reset takes others these are the reset region (R182). -/
def State.ringOf (s : State) (n : Nat) : Nat × Nat :=
  let p := s.pe n
  if p.ringN = 0 then (0xC00000000 + n * 0x10000000, 256 * 32768) else (p.ringBase, p.ringN)

/-- R184: no position is free. -/
def State.ringFull (s : State) (n : Nat) : Bool :=
  ((s.rd (peA n 0x1C0C)).toNat + 1) % (s.ringOf n).2 == (s.rd (peA n 0x1C10)).toNat

/-- SITE_RES bit `i` set in each of some sites. -/
def State.siteRes (s : State) (n : Nat) (sites : BitVec 4) (i : Nat) : State :=
  s.each (List.range 4) (fun s k => s.iff (bit sites k) (fun s => s.put (peA n (0x1CA0 + 4 * k)) i true))

/-- A record that is lost (R184). -/
def State.ringLose (s : State) (n : Nat) (sites : BitVec 4) (queueFull : Bool) : State :=
  (((s.count (peA n 0x1C20) (peA n 0x1C1C) 31).iff queueFull (fun s => s.put (peA n 0x1C1C) 1 true)).siteRes n
    sites 7).modPe n (fun p => { p with ring := { p.ring with lost := true } })

/-- A fail or capture record enters the queue, or is lost (R184). -/
def State.ringPush (s : State) (n : Nat) (r : QRec) : State :=
  let q := (s.pe n).ring.q
  if 64 ≤ q.length then s.ringLose n r.sites true
  else if s.ringFull n then s.ringLose n r.sites false
  else s.modPe n (fun p => { p with ring := { p.ring with q := qRecord r p.ring.q } })

/-- A beacon at this tick enters the queue (R48, R49). -/
def State.ringBeacon (s : State) (n : Nat) (reason : BitVec 4) (prior : Word64) : State :=
  let q := (s.pe n).ring.q
  if 64 ≤ q.length then s.ringLose n 0 true
  else
    let b : QRec := ⟨s.now, s.full, 0, .beacon reason s.full prior⟩
    s.modPe n (fun p => { p with ring := { p.ring with q := qBeacon b recRank p.ring.q } })

/-- The next position takes a record: it is in HBM and FRING_WR advances (R183). -/
def State.ringPlace (s : State) (n : Nat) (r : BitVec 256) : State :=
  let (base, cnt) := s.ringOf n
  let w := (s.rd (peA n 0x1C0C)).toNat
  (s.hbmPut (base + 32 * w) (recBytes r)).wr (peA n 0x1C0C) (BitVec.ofNat 32 ((w + 1) % cnt))

/-! Result FIFO -/

/-- RX STAT bit. -/
def rxA (n o : Nat) : Nat := rfA n o

/-- An entry enters the FIFO of 256, or is lost (R241). -/
def State.fifoPut (s : State) (n : Nat) (r : BitVec 256) : State :=
  let p := s.rx n
  if 256 ≤ p.fifo.length then
    (((s.count (rxA n 0x4010) (rxA n 0x4004) 30).put (rxA n 0x4004) 5 true)).modRx n
      (fun p => { p with stream := { p.stream with lost := true } })
  else s.setRx n { p with fifo := p.fifo ++ [r] }

/-- A beacon enters the FIFO; after a loss it is the RESUME beacon (R48). -/
def State.fifoBeacon (s : State) (n : Nat) (reason : BitVec 4) (prior : Word64) : State :=
  let p := s.rx n
  if 256 ≤ p.fifo.length then s.fifoPut n 0
  else
    let why : BitVec 4 := if p.stream.lost && reason != 4 then 5 else reason
    let (r, q) := p.stream.beacon why s.full prior
    (s.setRx n { p with stream := { q with lost := false }, fifoOn := p.fifoOn || reason == 4 }).fifoPut n r

/-- A result record enters the FIFO, behind a RESUME beacon where one is due (R48, R241). -/
def State.fifoRecord (s : State) (n : Nat) (f : Word64 → BitVec 256) : State :=
  let s := s.iff ((s.rx n).stream.lost && decide ((s.rx n).fifo.length < 256)) (fun s => s.fifoBeacon n 5 0)
  let p := s.rx n
  let room := decide (p.fifo.length < 256)
  (s.fifoPut n (f p.stream.last)).iff room
    (fun s => s.modRx n (fun p => { p with stream := p.stream.counted }))

/-! Acquisition stream -/

/-- The ring of the stream: its positions, whether it lies at the host, and its base (R246). -/
def State.aqN (s : State) (n : Nat) : Nat := s.rdf (rxA n 0x4288) 0 13 * 32768
def State.aqHost (s : State) (n : Nat) : Bool := s.tst (rxA n 0x4288) 31
def State.aqBase (s : State) (n : Nat) : Nat :=
  let b := (s.rd64 (rxA n 0x4280)).toNat / 2 ^ 20 * 2 ^ 20
  if s.aqHost n then b else b % 2 ^ 36

/-- R246 for R184: no position of the stream's ring is free. -/
def State.aqFull (s : State) (n : Nat) : Bool :=
  let c := s.aqN n
  c != 0 && ((s.rd (rxA n 0x428C)).toNat + 1) % c == (s.rd (rxA n 0x4290)).toNat

def State.aqLose (s : State) (n : Nat) (queueFull : Bool) : State :=
  ((s.count (rxA n 0x4014) (rxA n 0x4004) 29).iff queueFull (fun s => s.put (rxA n 0x4004) 7 true)).modRx n
    (fun p => { p with acq := { p.acq with q := { p.acq.q with lost := true } } })

/-- A stream record enters the queue of 256, or is lost. Records of one stream come in their order; a beacon goes
before what is at or after its tick (R49). -/
def State.aqPush (s : State) (n : Nat) (r : QRec) : State :=
  let q := (s.rx n).acq.q.q
  if 256 ≤ q.length then s.aqLose n true
  else if s.aqFull n then s.aqLose n false
  else s.modRx n (fun p => { p with acq := { p.acq with q := { p.acq.q with q := qRecord r p.acq.q.q } } })

def State.aqBeacon (s : State) (n : Nat) (reason : BitVec 4) (prior : Word64) : State :=
  let q := (s.rx n).acq.q.q
  if 256 ≤ q.length then s.aqLose n true
  else
    let b : QRec := ⟨s.now, s.full, 0, .beacon reason s.full prior⟩
    s.modRx n (fun p => { p with acq := { p.acq with q := { p.acq.q with q := qBeacon b recRank p.acq.q.q } } })

/-- R48: a beacon in every enabled stream: the fail rings with REC_EN or CAP_EN, the result FIFOs that have
had their START beacon, and the acquisition streams that run. -/
def State.beaconAll (s : State) (reason : BitVec 4) (prior : Word64) : State :=
  let s := s.each (List.range 64) (fun s n => s.iff (s.rdf (peA n 0x1C18) 0 2 != 0) (fun s => s.ringBeacon n reason prior))
  s.each (List.range 32) (fun s n => s.iff (s.dom (16 + n / 8)) (fun s =>
    (s.iff (s.rx n).fifoOn (fun s => s.fifoBeacon n reason prior)).iff (s.rx n).acq.run (fun s => s.aqBeacon n reason prior)))

end Sys2Proof.Machine
end

