-- ==== Sys2Proof/Machine/TxSet.lean ====
section
/-! DEFINITION. Settings of a TX port that take effect at a sample to come (R92, R211, R229). -/

namespace Sys2Proof.Machine

/-- A setting stays ahead of one that comes later. -/
def TxDue.ahead (d : TxDue) (a : TxDue) : Bool := decide (a.pos < d.pos) || (a.pos == d.pos && (!a.last || d.last))

/-- A setting joins those to come. -/
def State.txSoon (s : State) (n : Nat) (d : TxDue) : State :=
  s.modTx n (fun x => { x with todo := x.todo.takeWhile d.ahead ++ d :: x.todo.dropWhile d.ahead })

/-- A setting takes effect. -/
def State.txPar (s : State) (n : Nat) (d : TxPar) : State :=
  match d with
  | .ftw k hi lo =>
    let a := rfA n (0x020 + 16 * k.val)
    s.wr64 a (join64 (hi.zeroExtend 32) (lo.getD (s.rd a)))
  | .poff k v => s.wr (rfA n (0x028 + 16 * k.val)) v
  | .amp k v => s.wr (rfA n (0x02C + 16 * k.val)) (v.zeroExtend 32)
  | .scale v => s.modTx n (fun x => { x with scale := v })
  | .route m v => s.modTx n (fun x => { x with route := x.route.set m.val v })
  | .mark rel sel lev => s.modTx n (fun x =>
      { x with ovr := (x.ovr ||| sel) &&& ~~~rel, ovrLev := (x.ovrLev &&& ~~~sel) ||| (lev &&& sel), slotStopped := false })

/-- The settings of a port that take effect before a position. -/
def State.txDue (s : State) (n lim : Nat) : State :=
  let l := (s.tx n).todo
  (s.modTx n (fun x => { x with todo := l.dropWhile (fun d => decide (d.pos < lim)) })).each
    (l.takeWhile (fun d => decide (d.pos < lim))) (fun s d => s.txPar n d.par)

/-- The settings of the samples before this tick, on every port. -/
def State.txDueAll (s : State) : State :=
  s.each (List.range 32) (fun s n => if (s.tx n).todo.isEmpty then s else s.txDue n (15 * s.now))

/-- Ticks to the tick after the next such sample. -/
def State.toTxDue (s : State) : Option Nat :=
  ((List.range 32).filterMap (fun n => (s.tx n).todo.head?.map (fun d => max 1 (d.pos / 15 + 1 - s.now)))).min?

/-- The marker overrides to come take effect at once. -/
def State.marksNow (s : State) (n : Nat) : State :=
  let l := (s.tx n).todo
  let isMark (d : TxDue) : Bool := match d.par with
    | .mark _ _ _ => true
    | _ => false
  (s.modTx n (fun x => { x with todo := l.filter (fun d => !isMark d) })).each (l.filter isMark) (fun s d => s.txPar n d.par)

end Sys2Proof.Machine
end

