-- ==== Sys2Proof/Machine/Pattern.lean ====
section
/-! DEFINITION. Timing sets as the Format Store holds them (R157–R165), the symbols of a vector on the lanes of a bank
(R129–R131, R160, R171), and the visibility of compare outcomes (R110). -/

namespace Sys2Proof.Machine

/-- The replaced record of timing set `t`, where the next period of PE n still takes it (R169). -/
def State.oldRec (s : State) (n t : Nat) : Option OldRec :=
  (s.pe n).oldRec.filter (fun o => o.ts == t && decide (max s.now (s.eng n).slotAt < o.until_))

/-- Word `w` of timing set `t` of PE n as its next period takes it (R165, R169). -/
def State.tsWord (s : State) (n t w : Nat) : Word64 :=
  match s.oldRec n t with
  | some o => o.words.getD w 0
  | none => s.rd64 (fsA n (t * 0x200 + w * 8))

/-- PERIOD in ticks. -/
def State.period (s : State) (n t : Nat) : Nat := fld (s.tsWord n t 0) 0 25

/-- Format code of lane l. -/
def State.fmtCode (s : State) (n t l : Nat) : Nat := fld (s.tsWord n t 1) (4 * l) 4

/-- Unit intervals of a format (R159). -/
def uiOf (fmt : Nat) : Nat := if fmt = 4 then 2 else if fmt = 5 then 8 else if fmt = 6 then 16 else 1

/-- Edge k of lane l: 0 D1, 1 D2, 2 D3, 3 C1, 4 C2 (R165). -/
def State.edge (s : State) (n t l k : Nat) : Word :=
  let w := s.tsWord n t (2 + 3 * l + k / 2)
  if k % 2 = 0 then loHalf w else hiHalf w

/-- R157: EN, and the offset in fine steps. -/
def edgeOn (e : Word) : Bool := bit e 31
def edgeAt (e : Word) : Nat := fld e 0 31

/-- R159: the unit interval in fine steps. -/
def uiWidth (period fmt : Nat) : Nat := period * 2048 / uiOf fmt

/-- DESKEW of lane l, in fine steps (R158). -/
def State.deskew (s : State) (n l : Nat) : Int := (BitVec.ofNat 16 (s.rdf (pbA n (4 * l)) 16 16)).toInt

/-- R110: ticks from a vector's first tick to the tick at which its outcome is visible: 32 after the strobe closes. -/
def State.visAfter (s : State) (n t : Nat) : Nat :=
  let p := s.period n t
  let close := (List.range 16).filterMap (fun l =>
    let c2 := s.edge n t l 4
    let f := s.fmtCode n t l
    if edgeOn c2 then
      some ((((uiOf f - 1) * uiWidth p f + edgeAt c2 : Nat) : Int) + s.deskew n l) else none)
  match close with
  | [] => 32
  | c :: cs => ((cs.foldl max c) / 2048 + 32).toNat

/-- Lanes whose C2 (k = 4) or C1 (k = 3) is enabled (R162). -/
def State.lanesWith (s : State) (n t k : Nat) : BitVec 16 :=
  (List.range 16).foldl (fun m l => setb m l (edgeOn (s.edge n t l k))) 0

/-- R151: the site of lane l. -/
def State.siteOf (s : State) (n l : Nat) : Nat := s.rdf (peA n 0x1020) (2 * l) 2

/-- A site mask spread over the lanes. -/
def State.lanesOf (s : State) (n : Nat) (sites : BitVec 4) : BitVec 16 :=
  (List.range 16).foldl (fun m l => setb m l (bit sites (s.siteOf n l))) 0

/-- The symbol of lane l in unit interval j of a vector; a vector of one word applies in every interval (R133, R135). -/
def symAt (vec : List Word64) (l j : Nat) : Nat := fld (vec.getD j (vec.headD 0)) (4 * l) 4

/-- One symbol acts on a lane's driver and previous driven value (R129, R130, R160). -/
def Lane.sym (x : Lane) (y : Nat) : Lane :=
  if y = 0 then { x with prev := false, on := true }
  else if y = 1 then { x with prev := true, on := true }
  else if y = 8 then { x with on := true }
  else if y = 9 then { x with prev := !x.prev, on := true }
  else if y = 6 then x
  else { x with on := false }

/-- R171: the symbols of a quiet vector. -/
def quietSym (y : Nat) : Bool := y == 6 || y == 7 || y == 8 || y == 15

/-- PPMU mode of a lane (R286). -/
def State.ppmuMode (s : State) (n l : Nat) : Nat := s.rdf (pbA n (0x840 + 4 * l)) 4 3

/-- Unit intervals of each lane of timing set `t` (R159). -/
def State.uis (s : State) (n t l : Nat) : Nat := uiOf (s.fmtCode n t l)

/-- The symbols lane l applies in one vector: X while its site is disabled (R151). -/
def State.laneSyms (s : State) (n l u : Nat) (vec : List Word64) : List Nat :=
  if bit (s.pe n).sites (s.siteOf n l) then (List.range u).map (symAt vec l) else [6]

/-- The quiet run grows by `k` vectors of `per` ticks from tick `t` on (R171, R173). -/
def Lane.quietRun (x : Lane) (k t per : Nat) : Lane :=
  let q := x.quiet + k
  if q < 8 ∨ k = 0 then { x with quiet := q }
  else { x with quiet := q, q8from := if x.quiet < 8 then t + (7 - x.quiet) * per else x.q8from, q8to := t + (k - 1) * per }

/-- A lane after `k` periods of one vector from tick `t` on. Driver states repeat from the second vector on, with N of period
two. -/
def State.lanePeriods (s : State) (n l u k t per : Nat) (vec : List Word64) : Lane :=
  let x := s.lane (16 * n + l)
  let ys := s.laneSyms n l u vec
  let x1 := ys.foldl Lane.sym x
  let x' := if k = 0 then x else if k % 2 = 1 then x1 else ys.foldl Lane.sym x1
  if s.ppmuMode n l ≠ 0 then { x' with quiet := 0 }
  else if ys.all quietSym then x'.quietRun k t per
  else if k = 0 then x'
  else { x' with quiet := 0 }

/-- `k` consecutive periods of `per` ticks from tick `t` in which the bank applies one vector, lane l in `u l` unit
intervals. -/
def State.applyVec (s : State) (n : Nat) (u : Nat → Nat) (k : Nat) (vec : List Word64) (t per : Nat) : State :=
  s.each (List.range 16) (fun s l => s.setLane (16 * n + l) (s.lanePeriods n l (u l) k t per vec))

/-- The vector of symbol X on every lane. -/
def vecX : List Word64 := [0x6666666666666666]

/-- The bank's Starve Vector (R145). -/
def State.starveVec (s : State) (n : Nat) : List Word64 := [s.rd64 (peA n 0x1010)]

/-- The period and unit intervals of a timing set, or those of the default record (R166, R323). -/
def State.periodOr (s : State) (n : Nat) (t : Option (BitVec 6)) : Nat :=
  match t with
  | none => 8
  | some t => s.period n t.toNat
def State.uisOr (s : State) (n : Nat) (t : Option (BitVec 6)) (l : Nat) : Nat :=
  match t with
  | none => 1
  | some t => s.uis n t.toNat l

/-- The periods of Starve Vector that a slot stop has let pass are applied (R82, R178). -/
def State.settleStarve (s : State) (n : Nat) : State :=
  match (s.pe n).starveFrom with
  | none => s
  | some (t0, ts) =>
    let p := max 1 (s.periodOr n ts)
    let k := (s.now - t0) / p
    (s.applyVec n (s.uisOr n ts) k (s.starveVec n) t0 p).modPe n (fun x => { x with starveFrom := some (t0 + k * p, ts) })

/-- R82 on a PE: the bank applies its Starve Vector from the start of the faulting slot, every period of the timing set
given. -/
def State.bankStarve (s : State) (n : Nat) (ts : Option (BitVec 6)) : State :=
  (s.applyVec n (s.uisOr n ts) 1 (s.starveVec n) (max s.now (s.eng n).slotAt) (s.periodOr n ts)).modPe n (fun x =>
    { x with visRun := none, starveFrom := some (max s.now (s.eng n).slotAt + s.periodOr n ts, ts) })

/-- The bank leaves its Starve Vector: the engine is started again, or the pins park. -/
def State.bankRelease (s : State) (n : Nat) : State :=
  (s.settleStarve n).modPe n (fun x => { x with starveFrom := none })

/-- R161: a lane drives, it is enabled, its OC and OV are clear and nothing parks it (R154, R156, R284, R344). -/
def State.drvOn (s : State) (n l : Nat) : Bool :=
  let x := s.lane (16 * n + l)
  x.on && s.tst (pbA n (0x800 + 4 * l)) 0 && !s.tst (pbA n (0x40 + 4 * l)) 8 && !s.tst (pbA n (0x40 + 4 * l)) 9 && !s.seas.lvlclr && !s.seas.park3
    && s.tst 0x020 (8 + n / 8)

end Sys2Proof.Machine
end

