-- ==== Sys2Proof/Machine/Engine.lean ====
section
/-! DEFINITION. The engine: its register files, tags and local memory (R54–R73). -/

namespace Sys2Proof.Machine

/-! Register files (R54) -/

/-- A general register; g0 reads 0. -/
def Eng.reg (x : Eng) (r : Gr) : Word64 := if r = 0 then 0 else tget (fun _ => 0) x.g r.val

/-- A general register written; a write to g0 is discarded. -/
def Eng.setReg (x : Eng) (r : Gr) (v : Word64) : Eng :=
  if r = 0 then x else { x with g := tset (fun _ => 0) x.g r.val v }

/-- A loop counter. -/
def Eng.ctr (x : Eng) (k : Fin 8) : Word := tget (fun _ => 0) x.c k.val
def Eng.setCtr (x : Eng) (k : Fin 8) (v : Word) : Eng := { x with c := tset (fun _ => 0) x.c k.val v }

/-- A predicate; p0 reads 1 and writes to it are discarded. -/
def Eng.pred (x : Eng) (p : Fin 8) : Bool := p = 0 || bit x.preds p.val
def Eng.setPred (x : Eng) (p : Fin 8) (b : Bool) : Eng := if p = 0 then x else { x with preds := setb x.preds p.val b }

/-- The APG registers. -/
def Eng.axr (x : Eng) (k : Fin 4) : BitVec 24 := tget (fun _ => 0) x.ax k.val
def Eng.ayr (x : Eng) (k : Fin 4) : BitVec 24 := tget (fun _ => 0) x.ay k.val
def Eng.adr (x : Eng) (k : Fin 4) : Word64 := tget (fun _ => 0) x.ad k.val
def Eng.setAx (x : Eng) (k : Fin 4) (v : BitVec 24) : Eng := { x with ax := tset (fun _ => 0) x.ax k.val v }
def Eng.setAy (x : Eng) (k : Fin 4) (v : BitVec 24) : Eng := { x with ay := tset (fun _ => 0) x.ay k.val v }
def Eng.setAd (x : Eng) (k : Fin 4) (v : Word64) : Eng := { x with ad := tset (fun _ => 0) x.ad k.val v }

/-- A FLAGS bit set: 0 LATE, 1 SAT, 2 FSAFE (R57). -/
def Eng.flag (x : Eng) (i : Nat) : Eng := { x with flags := setb x.flags i true }

/-! Tags (R71, R73) -/

/-- A register that a tag will write. -/
def Eng.busy (x : Eng) (r : Gr) : Bool := r ≠ 0 && x.tags.any (fun t => t.2.rd == r)

/-- The lowest-numbered free tag. -/
def Eng.freeTag (x : Eng) : Option Nat := (List.range 16).find? (fun k => !x.tags.any (fun t => t.1 == k))

/-- TAG_BUSY. -/
def Eng.tagMask (x : Eng) : BitVec 16 := x.tags.foldl (fun m t => setb m t.1 true) 0

def Eng.tag? (x : Eng) (k : Nat) : Option TagUse := (x.tags.find? (fun t => t.1 == k)).map (·.2)

/-- A tag taken. -/
def Eng.take (x : Eng) (u : TagUse) : Eng :=
  match x.freeTag with
  | some k => { x with tags := x.tags ++ [(k, u)] }
  | none => x

/-- The value a busy tag will write is known. -/
def Eng.fill (x : Eng) (k : Nat) (v : Word64) : Eng :=
  { x with tags := x.tags.map (fun t => if t.1 = k then (t.1, { t.2 with val := some v }) else t) }

/-- A tag completes: its destination is written and the tag is free. -/
def Eng.done (x : Eng) (k : Nat) (v : Word64) : Eng :=
  match x.tag? k with
  | some u => { (x.setReg u.rd v) with tags := x.tags.filter (fun t => t.1 != k) }
  | none => x

/-! Local memory (R66, R67): a 64-bit word of IMEM or DMEM in the engine's window -/

def imemA (e w : Nat) : Nat := memA e (8 * (w % 16384))
def dmemA (e w : Nat) : Nat := memA e (0x20000 + 8 * (w % 16384))

def State.dmem (s : State) (e w : Nat) : Word64 := s.rd64 (dmemA e w)
def State.setDmem (s : State) (e w : Nat) (v : Word64) : State := s.wr64 (dmemA e w) v

/-! The past rule (R44) -/

/-- How far a target lies ahead of the WTC, and whether it is past. -/
def atDiff (t wtc : BitVec 48) : Nat := (t - wtc).toNat
def isPast (t wtc : BitVec 48) : Bool := decide (2 ^ 47 ≤ atDiff t wtc)

end Sys2Proof.Machine
end

