-- ==== Sys2Proof/Machine/Interval.lean ====
section
/-! DEFINITION. The time-interval unit: arming, events, endings and its result word (R301–R307). -/

namespace Sys2Proof.Machine

/-- Start and stop source kinds of a configuration: 0 comparator, 1 marker, 2 WTC match (R301). -/
def Tdc.skind (x : Tdc) : Nat := fld x.cfg 29 2
def Tdc.pkind (x : Tdc) : Nat := fld x.cfg 21 2
def Tdc.freq (x : Tdc) : Bool := bit x.cfg 31

/-- The result word (R306). -/
def Tdc.result (x : Tdc) (uncal cancel timeout : Bool) (interval : Nat) : Word64 :=
  BitVec.ofNat 64 (cancel.toNat * 2 ^ 62 + timeout.toNat * 2 ^ 61 + x.started.toNat * 2 ^ 60
    + x.refCold.toNat * 2 ^ 59 + uncal.toNat * 2 ^ 58 + x.late.toNat * 2 ^ 57 + x.freq.toNat * 2 ^ 56
    + interval % 2 ^ 50)

/-- The NOTARMED word (R306, R307). -/
def tdcNotArmed : Word64 := 0x8000000000000000

/-- The word a second TDCR takes (R307). -/
def tdcSecond : Word64 := 0x4000000000000000

/-- The measurement ends at a tick with a word (R305). -/
def Tdc.finish (x : Tdc) (tick : Nat) (w : Word64) : Tdc := { x with ended := some (tick, w) }

/-- The start, at a time in 1/1024 tick; a stop match that is past ends the measurement there (R302, R303). -/
def Tdc.begin (x : Tdc) (at_ : Nat) (wtc : BitVec 48) (uncal : Bool) : Tdc :=
  let x := { x with st := .started, started := true, startAt := at_, lastAt := at_, count := 0 }
  if x.pkind = 2 ∧ isPast x.pmatch wtc then
    let x := { x with late := true }
    x.finish (at_ / 1024) (x.result uncal false false 0)
  else x

/-- A stop-source edge at a time in 1/1024 tick: ignored in the dead time; counted in frequency mode, where the last
one ends the measurement; in interval mode the stop (R302, R304). The dead time does not apply to a stop match. -/
def Tdc.edge (x : Tdc) (at_ : Nat) (uncal : Bool) : Tdc :=
  if x.st ≠ .started ∨ x.ended.isSome ∨ at_ < x.startAt then x
  else if x.pkind ≠ 2 ∧ at_ < x.lastAt + 256 then x
  else if x.freq then
    let x := { x with count := x.count + 1, lastAt := at_ }
    if x.count = x.nm1 + 1 then x.finish (at_ / 1024) (x.result uncal false false (at_ - x.startAt)) else x
  else x.finish (at_ / 1024) (x.result uncal false false (at_ - x.startAt))

/-- The timeout (R305). -/
def Tdc.timeout (x : Tdc) (tick : Nat) (uncal : Bool) : Tdc :=
  if (x.st ≠ .armed ∧ x.st ≠ .started) ∨ x.ended.isSome then x
  else x.finish tick (x.result uncal false true (if x.freq ∧ 0 < x.count then x.lastAt - x.startAt else 0))

/-- Whether the TDC results carry UNCAL: the module is in SPRING. -/
def State.uncal (s : State) : Bool := s.season = 1

/-- TDC k = 2n + t is armed with its registers as they stand; a start match that is past fires at once (R303, R307);
a calibration of the TDC is abandoned (R368). -/
def State.tdcArm (s : State) (n t : Nat) : State :=
  let a := tdcA n t
  let tmo := (s.rd64 (a 0x20)).toNat % 2 ^ 40
  let x : Tdc :=
    { st := .armed, cfg := s.rd (a 0x08), nm1 := s.rdf (a 0x0C) 0 16, smatch := (s.rd64 (a 0x10)).truncate 48,
      pmatch := (s.rd64 (a 0x18)).truncate 48, tmo := if tmo = 0 then 2 ^ 40 else tmo, armAt := s.now,
      refCold := !s.seas.refWarm }
  let x := if x.skind = 2 ∧ isPast x.smatch s.wtc then { x with late := true }.begin (s.now * 1024) s.wtc s.uncal else x
  (s.setTdc (2 * n + t) x).calDrop (1088 + 2 * n + t)

/-- R118: arming a TDC that is not idle is ignored and refused. -/
def State.tdcArmOr (s : State) (n t : Nat) (refuse : State → State) : State :=
  if (s.tdc (2 * n + t)).st = .idle then s.tdcArm n t else refuse s

/-- R305: a cancel. The TDC is idle at once and the word goes only to a waiting TDCR. -/
def State.tdcCancel (s : State) (n t : Nat) : State :=
  let x := s.tdc (2 * n + t)
  if x.st = .idle then s
  else
    let w := x.result s.uncal true false 0
    let s := s.setTdc (2 * n + t) { x with st := .idle, waiter := none, ended := none, started := false }
    match x.waiter with
    | some k => s.modEng n (fun e => e.done k w)
    | none => s

/-- PE n entering STOPPING cancels its measurements (R305). -/
def State.tdcCancelBank (s : State) (n : Nat) : State := (s.tdcCancel n 0).tdcCancel n 1

/-- R42, R303: a pending match is judged again against the new WTC; a value now past fires at this tick. -/
def State.tdcRejudge (s : State) (k : Nat) : State :=
  let x := s.tdc k
  if x.st = .armed ∧ x.skind = 2 ∧ isPast x.smatch s.wtc then
    s.setTdc k ({ x with late := true }.begin (s.now * 1024) s.wtc s.uncal)
  else if x.st = .started ∧ x.ended.isNone ∧ x.pkind = 2 ∧ isPast x.pmatch s.wtc then
    let x := { x with late := true }
    s.setTdc k (x.finish s.now (x.result s.uncal false false 0))
  else s

/-- REF_WARM low while a measurement runs marks it (R305). -/
def State.tdcCold (s : State) : State :=
  { s with tdcs := s.tdcs.map (fun (k, x) =>
      (k, if (x.st = .armed ∨ x.st = .started) ∧ x.ended.isNone then { x with refCold := true } else x)) }

end Sys2Proof.Machine
end

