-- ==== Sys2Proof/Machine/Stops.lean ====
section
/-! DEFINITION. Faults and stops of an engine, launches and issue slots (R44–R46, R64, R74–R86). -/

namespace Sys2Proof.Machine

/-! Faults and stops (R64, R82, R85, R86) -/

/-- A fault of the engine itself (R391). -/
def State.engFault (s : State) (e cls lvl : Nat) : State := s.raise cls lvl (engKind e) (engIdx e) 0

/-- RX port n keeps what it reads up to a position, as long as a sample before that can still be evaluated (R235,
R236). -/
def State.keepOld (s : State) (n : Nat) (o : Old) : State :=
  s.modRx n (fun x =>
    if x.wins.isEmpty ∧ !x.acq.run then { x with old := x.old.filter (fun v => decide (30 * s.now < v.until_)) ++ [o] }
    else { x with old := x.old ++ [o] })

/-- What the WTC of a port's anchor index is ahead of the elapsed ticks (R205, R209). -/
def State.anchorDiff (s : State) (n : Nat) : BitVec 48 := s.wtc - BitVec.ofNat 48 s.now + (s.tx n).anchor

/-- A port that stops: code 0, no request, no step mode. A held trigger stays (R220, R226). -/
def TxPort.halt (x : TxPort) (st : TxSt) : TxPort :=
  { x with st := st, req := none, stopReq := none, stopNow := none, decided := none, stepStart := false,
           stepFault := false, anchor := 0, anchorPend := false, startAt := none, entry := [] }

/-- The ports of n take their sample index from the new count from a position on (R209, R235). -/
def State.reanchor (s : State) (n pos : Nat) : State :=
  if (s.tx n).anchorPend then
    (s.keepOld n ⟨2 * pos, 0, (s.anchorDiff n).zeroExtend 64⟩).modTx n (fun x => { x with anchor := 0, anchorPend := false })
  else s

/-- TX[n] stops at a sample and re-anchors (R209, R220). -/
def State.txHalt (s : State) (n pos : Nat) (st : TxSt) : State := (s.reanchor n pos).modTx n (fun x => x.halt st)

/-- R82, R227: a slot stop of WE n stops TX[n]: zero samples, markers low. -/
def State.txSlotStop (s : State) (n : Nat) : State :=
  if (s.tx n).st = .muted then s
  else ((s.txHalt n (15 * s.now) .idle).marksNow n).modTx n (fun x => { x with slotStopped := true })

/-- STOP_INFO (R83). -/
def stopInfo (reason : Nat) (timed past : Bool) (addr : Nat) : Word :=
  BitVec.ofNat 32 (reason * 2 ^ 24 + timed.toNat * 2 ^ 23 + past.toNat * 2 ^ 14 + addr % 2 ^ 14)

/-- R82: what a slot stop does at the pins or the port, in the timing set given. -/
def State.slotOut (s : State) (e : Nat) (ts : Option (BitVec 6)) : State :=
  if e < 64 then s.bankStarve e ts else s.txSlotStop (e - 64)

/-- An engine stops at an address: STOPPING, and STOP_INFO names the reason (R86). `out` is the timing set of the Starve
Vector where the stop is a slot stop (R82). -/
def State.engStopOut (s : State) (e reason addr : Nat) (past : Bool) (out : Option (Option (BitVec 6))) : State :=
  let x := s.eng e
  let s := s.wr (engA e 0x010) (stopInfo reason x.timed past addr)
  let s := match out with
    | some ts => s.slotOut e ts
    | none => s
  let s := s.iff (decide (e < 64)) (fun s => (s.modPe e (fun p => { p with visRun := none })).tdcCancelBank e)
  let y := s.eng e
  s.setEng e { y with st := .stopping, wait := .none, pc := addr, lastPc := addr, timed := false, slot := 0,
                      slotAt := s.now, stopPend := false, suspPend := false, atTick := none, gapDone := false, throttled := false }

/-- A stop at an address; inside a timed section it is a slot stop in the current timing set (R82). -/
def State.engStop (s : State) (e reason addr : Nat) (past : Bool := false) : State :=
  s.engStopOut e reason addr past (if (s.eng e).timed then some (some (s.eng e).ts) else none)

/-- The vector issue in progress on an engine. -/
def State.visOf (s : State) (e : Nat) : Option VisRun := if e < 64 then (s.pe e).visRun else none

/-- The instruction whose slot would begin next: a vector issue in progress while it has slots left. -/
def State.nextPc (s : State) (e : Nat) : Nat :=
  match s.visOf e with
  | some q => if q.isMatch ∨ q.next ≤ q.reps then q.pc else (s.eng e).pc
  | none => (s.eng e).pc

/-- The address a stop names while nothing issues: the instruction not yet completed (R85; log 16). -/
def State.stopAddr (s : State) (e : Nat) : Nat :=
  match (s.eng e).wait with
  | .none | .gap _ => s.nextPc e
  | .atTarget _ _ | .verdict _ _ => (s.eng e).lastPc

/-- A stop from outside at once (R85). -/
def State.engStopNow (s : State) (e reason : Nat) : State :=
  let x := s.eng e
  if x.st = .running ∨ x.st = .suspended ∨ x.st = .sigWait then s.engStop e reason (s.stopAddr e) else s

/-- An untimed instruction is in progress: a vector issue. -/
def State.midIssue (s : State) (e : Nat) : Bool := (s.eng e).st = .running && !(s.eng e).timed && (s.visOf e).isSome

/-- STOP_NOW and a fault reaction: in untimed code at the end of the current instruction (R85, R392). -/
def State.engStopReq (s : State) (e reason : Nat) : State :=
  if s.midIssue e then s.modEng e (fun x => { x with stopPend := true, stopReason := reason }) else s.engStopNow e reason

/-- ILLEGAL at level 2 at an instruction (R64). -/
def State.illegal (s : State) (e addr : Nat) : State := (s.engFault e clsIllegal 2).engStop e 4 addr

/-- A machine check at an instruction (R69, R313, R323). -/
def State.mchk (s : State) (e addr : Nat) : State := (s.engFault e clsMchk 2).engStop e 6 addr

/-- A TIMING fault of the engine, counted (R80). -/
def State.timingFault (s : State) (e lvl : Nat) : State :=
  (s.engFault e clsTiming lvl).count (engA e 0x024) (engA e 0x004) 18

/-- TIMING at level 2: slot stop (R80). -/
def State.timing (s : State) (e addr : Nat) : State := (s.timingFault e 2).engStop e 5 addr

/-- An engine's interrupt, vector 67 + e, under bit `i` of IRQ_EN (R84). -/
def State.engIrq (s : State) (e i : Nat) : State := s.iff (s.tst (engA e 0x01C) i) (fun s => s.irq (67 + e))

/-- A pending STOP or SUSPEND acts at a boundary outside a timed section (R85). -/
def State.boundary (s : State) (e : Nat) : State :=
  let x := s.eng e
  if x.timed ∨ x.st ≠ .running then s
  else if x.stopPend then s.engStop e x.stopReason (s.stopAddr e)
  else if x.suspPend then s.setEng e { x with st := .suspended, resumeTo := .running, suspPend := false }
  else s

/-! Launch and slots (R44, R45, R74, R75) -/

/-- A late launch sets LATE and counts (R44). -/
def State.late (s : State) (e : Nat) : State :=
  (s.modEng e (fun x => x.flag 0)).count (timeA 0x044) (timeA 0x004) 17

/-- An AT target judged against the WTC now: past, it launches late; reached, it launches; else the engine waits
(R44, R46). -/
def State.judgeAt (s : State) (e : Nat) (t : BitVec 48) (pair : Bool) : State :=
  if isPast t s.wtc then (s.late e).modEng e (fun x => { x with wait := .none, atTick := some s.now })
  else if t = s.wtc then s.modEng e (fun x => { x with wait := .none, atTick := some s.now })
  else s.modEng e (fun x => { x with wait := .atTarget t pair, atTick := none })

/-- TX index positions in a granule: 16 samples, of 15 to a tick in SUMMER, each four positions in SPRING (R75). -/
def State.granule (s : State) : Nat := if s.season = 1 then 64 else 16

/-- The elapsed tick in which the next slot begins. -/
def State.slotTick (s : State) (e : Nat) : Nat :=
  let x := s.eng e
  if e < 64 then x.slotAt else x.slotAt + (x.slotOff + s.granule * x.secLen) / 15

/-- The first tick boundary at or after the end of the slots issued so far (R76). -/
def State.sectionEnd (s : State) (e : Nat) : Nat :=
  let x := s.eng e
  if e < 64 then x.slotAt else x.slotAt + (x.slotOff + s.granule * x.secLen + 14) / 15

end Sys2Proof.Machine
end

