-- ==== Sys2Proof/Machine/Access.lean ====
section
/-! DEFINITION. Which accesses reach a register, and what answers the others (R107, R345, R354, R402–R404). -/

namespace Sys2Proof.Machine

/-- HOST_STAT SIZE_ERR (bit 2) or UNIMPL (bit 1) sets; the first such access latches its offset (R404). -/
def State.hostStat (s : State) (i a : Nat) : State :=
  let first := !s.tst 0x2000 1 && !s.tst 0x2000 2
  (s.iff first (fun s => s.wr 0x2004 (BitVec.ofNat 32 (a % 2 ^ 26)))).put 0x2000 i true

/-- R107: the registers an engine's CSR reaches: its own PE block from 0x1000, its bank or port, and TIME to read. -/
def csrWindow (e a : Nat) (wr : Bool) : Bool :=
  (decide (e < 64) && decide (engA e 0x1000 ≤ a) && decide (a < engA e 0x10000))
  || (decide (e < 64) && decide (pbA e 0 ≤ a) && decide (a < pbA e 0x4000))
  || (decide (64 ≤ e) && decide (rfA (e - 64) 0 ≤ a) && decide (a < rfA (e - 64) 0x8000))
  || (!wr && decide (timeA 0 ≤ a) && decide (a < timeA 0x10000))

/-- WE offsets 0x240–0x27C hold nothing and are not R403's (R83). -/
def weBlank (a : Nat) : Bool :=
  match blkOf a with
  | (.we _, o) => decide (0x240 ≤ o) && decide (o < 0x280)
  | _ => false

/-- R354: an access to a register outside AON in WINTER, WINTER_ENTRY or WAKING; in WINTER it may be a wake event. -/
def State.winterAnswer (s : State) : State :=
  (s.put 0x00C 5 true).iff (s.season = 0 && s.tst 0x030 0) (fun s => s.modSeas (fun x => { x with held := true }))

/-- The first two rules of R404, for a path other than CSR: what answers the access instead of its register (R345, R354). While
RESET_N is low nothing is reached (R359). -/
def State.gate (s : State) (p : Path) (a : Nat) : Option Word × State :=
  let d := domainOf a
  if s.seas.resetLow then (some 0xFFFFFFFF, s)
  else if (s.season = 0 ∨ s.season = 4 ∨ s.season = 5) ∧ d ≠ 0 then (some 0xFFFFFFFF, s.winterAnswer)
  else if !s.dom d then
    (some 0xFFFFFFFF, (s.put 0x00C 6 true).raise clsHost 0 (pathKind p).1 (pathKind p).2 0)
  else (none, s)

/-- R403: an offset that holds no register. -/
def State.named (s : State) (a : Nat) : Option Word × State :=
  if weBlank a || isReg a then (none, s) else (some 0, s.hostStat 1 a)

/-- Whether an access reaches its register (`none`), or else what a read of it answers (R404). -/
def State.reach (s : State) (p : Path) (a : Nat) (wr : Bool) : Option Word × State :=
  match p with
  | .csr e =>
    if !csrWindow e.val a wr then (some 0, s)
    else if !s.dom (domainOf a) then (some 0, s.illegal e.val (s.eng e.val).lastPc)
    else s.named a
  | _ =>
    match s.gate p a with
    | (some v, s) => (some v, s)
    | (none, s) => s.named a

/-- A host command: it acts where its register is reached. -/
def State.host (s : State) (p : Path) (a : Nat) (f : State → State) : State :=
  match s.reach p a true with
  | (none, s) => f s
  | (some _, s) => s

end Sys2Proof.Machine
end

