-- ==== Sys2Proof/Machine/VecRun.lean ====
section
/-! DEFINITION. A vector issue in progress: where its vectors come from, its repetitions and match loops, slot by slot (R112,
R126–R147). -/

namespace Sys2Proof.Machine

/-! APG vectors (R146, R148) -/

/-- Byte i of the scrambler table. -/
def State.scr (s : State) (n i : Nat) : Nat := fld (s.rd (peA n (0x1180 + 4 * (i / 4)))) (8 * (i % 4)) 8

/-- Logical address bit `i`: 0–23 of X, 24–47 of Y. -/
def addrBit (x y : BitVec 24) (i : Nat) : Bool := if i < 24 then bit x i else bit y (i - 24)

/-- The address pair of configuration k. -/
def State.apair (s : State) (n : Nat) (k : Fin 4) : Fin 4 := Fin.ofNat 4 (s.rdf (peA n (0x1100 + 4 * k.val)) 0 2)

/-- SCR_EN of configuration k. -/
def State.scrEn (s : State) (n : Nat) (k : Fin 4) : Bool := s.tst (peA n (0x1100 + 4 * k.val)) 4

/-- Physical address bit `i` under configuration k. -/
def State.physBit (s : State) (n : Nat) (k : Fin 4) (i : Nat) : Bool :=
  let e := s.eng n
  let a := s.apair n k
  if s.scrEn n k then
    let c := s.scr n i
    addrBit (e.axr a) (e.ayr a) (c % 64) != decide (128 ≤ c)
  else addrBit (e.axr a) (e.ayr a) i

/-- The bit b that the lane map of configuration k selects for lane l. -/
def State.apgBit (s : State) (n : Nat) (k : Fin 4) (l : Nat) : Bool :=
  let m := s.rd (peA n (0x1200 + 64 * k.val + 4 * l))
  let i := fld m 8 6
  if fld m 14 2 = 0 then
    let c := s.scr n (48 + l)
    bit ((s.eng n).adr k) i != (s.scrEn n k && decide (128 ≤ c) && s.physBit n k (c % 64))
  else if fld m 14 2 = 1 then s.physBit n k i
  else s.physBit n k (24 + i)

/-- The symbol lane l takes from configuration k, as one of R129's fixed symbols. -/
def State.apgSym (s : State) (n : Nat) (k : Fin 4) (l : Nat) : Nat :=
  let y := s.rdf (peA n (0x1200 + 64 * k.val + 4 * l)) 0 4
  let b := s.apgBit n k l
  if y = 0xB then b.toNat else if y = 0xD then (!b).toNat
  else if y = 0xC then (if b then 3 else 2) else if y = 0xE then (if b then 2 else 3) else y

/-- The vector of configuration k. -/
def State.apgVec (s : State) (n : Nat) (k : Fin 4) : List Word64 :=
  [(List.range 16).foldl (fun (v : Word64) l => putf v (4 * l) 4 (s.apgSym n k l)) 0]

/-! Stored vectors (R133–R137) -/

/-- Entry i of the Vector Block Table in use: its two words. -/
def State.vbt (s : State) (n : Nat) (i : Nat) : Word64 × Word64 :=
  let a := (s.pe n).vbtBase + 16 * i
  (s.hbmW a, s.hbmW (a + 8))

/-- Vectors in a block, unit intervals of each, and its base. -/
def vbtLen (e : Word64 × Word64) : Nat := fld e.2 0 16 + 1
def vbtUi (e : Word64 × Word64) : Nat := [1, 2, 8, 16].getD (fld e.2 16 2) 1
def vbtAddr (e : Word64 × Word64) : Nat := fld e.1 6 30 * 64

/-- R134, R136: VALID, no reserved bit, and the block within HBM. -/
def vbtOk (e : Word64 × Word64) : Bool :=
  bit e.2 63 && fld e.2 18 45 = 0 && fld e.1 0 6 = 0 && fld e.1 36 28 = 0
    && decide (vbtAddr e + 8 * vbtUi e * vbtLen e ≤ 2 ^ 36)

/-- A stored vector as the loop buffer or the cache holds it. -/
def Pe.cached (p : Pe) (index : BitVec 26) (num : Nat) : Option CVec :=
  match (p.lbuf.bind (fun b => b.vecs.find? (fun v => v.index = index && v.num = num))) with
  | some v => some v
  | none => p.vcache.find? (fun v => v.index = index && v.num = num)

/-- The number in its block of the vector that repetition r issues (R135). -/
def State.vecNum (s : State) (n : Nat) (index : BitVec 26) (r : Nat) : Nat := r % vbtLen (s.vbt n index.toNat)

/-- The vector of repetition r, where it is there: a missing stored vector is `none` (R142). -/
def State.vecOf (s : State) (n : Nat) (src : VSrc) (lit : Word64) (r : Nat) : Option CVec :=
  match src with
  | .stored i => (s.pe n).cached i (s.vecNum n i r)
  | .apg k => some ⟨0, 0, s.apgVec n k, false, false⟩
  | .literal _ => some ⟨0, 0, [lit], false, false⟩
  | .starve => some ⟨0, 0, s.starveVec n, false, false⟩

/-! One vector -/

/-- Symbols of a vector that act as Z and raise ILLEGAL (R131, R132): 0xB to 0xF, which no APG vector holds. -/
def badNibble (y : Nat) : Bool := decide (11 ≤ y)

/-- A vector with those symbols as Z. -/
def cleanVec (v : List Word64) : List Word64 :=
  v.map (fun w => (List.range 16).foldl (fun (a : Word64) l => if badNibble (fld w (4 * l) 4) then putf a (4 * l) 4 7 else a) w)

/-- Whether a lane carries such a symbol in a unit interval it takes. -/
def State.vecBad (s : State) (n t : Nat) (v : List Word64) : Bool :=
  (List.range 16).any (fun l => (List.range (s.uis n t l)).any (fun j => badNibble (symAt v l j)))

/-- The address pair a vector carries (R147). -/
def State.vecPair (s : State) (n : Nat) (src : VSrc) : Fin 4 :=
  match src with
  | .apg k => s.apair n k
  | _ => 0

/-- Outcomes seen before this tick need no record (R110). -/
def VecIssue.live (v : VecIssue) (now : Nat) : Bool := decide (now ≤ v.tick + (v.n - 1) * v.period + v.strobe)

/-- Two runs of one vector that adjoin. -/
def VecIssue.joins (a b : VecIssue) : Bool :=
  a.pc == b.pc && a.kind == b.kind && a.ts == b.ts && a.vec == b.vec && a.sites == b.sites && a.period == b.period
    && a.tick + a.n * a.period == b.tick && a.rep0 + a.n == b.rep0 && a.x == b.x && a.y == b.y
    && a.fmts == b.fmts && a.wtc + BitVec.ofNat 48 (a.n * a.period) == b.wtc

/-- A run added to those in flight. -/
def addFlight (b : VecIssue) : List VecIssue → List VecIssue
  | [] => [b]
  | [a] => if a.joins b then [{ a with n := a.n + 1 }] else [a, b]
  | a :: t => a :: addFlight b t

/-- The kind of the repetition at hand: what its compares are for (R112, R179). -/
def VisRun.kind (q : VisRun) : VecKind :=
  if q.src = .starve then .starve
  else if !q.isMatch then .vis
  else if q.next = q.reps ∧ q.hit.isNone then .vmatchLast
  else .vmatch

/-- One repetition applies its vector for a period of its timing set and is counted (R74, R181, R186, R424). -/
def State.oneVec (s : State) (n : Nat) (q : VisRun) (vec : List Word64) : State :=
  let t := q.ts.toNat
  let e := s.eng n
  let p := s.pe n
  let per := s.period n t
  let a := s.vecPair n q.src
  let i : VecIssue :=
    { vcyc := p.vcyc, n := 1, rep0 := q.next, pc := q.pc, ts := q.ts, kind := q.kind, apair := BitVec.ofNat 2 a.val,
      x := e.axr a, y := e.ayr a, wtc := s.wtc + BitVec.ofNat 48 e.slotAt - BitVec.ofNat 48 s.now, tick := e.slotAt, period := per,
      strobe := s.visAfter n t, judged := s.lanesWith n t 4, caps := s.lanesWith n t 3, sites := p.sites,
      vmask := p.vmask, fmts := s.tsWord n t 1, vec := vec }
  let s := (s.applyVec n (s.uis n t) 1 vec e.slotAt per).siteRes n p.sites 0
  let s := s.iff (s.tst (serA 0x108) 7) (fun s => s.siteRes n p.sites 5)
  let s := s.modPe n (fun p =>
    { p with vcyc := p.vcyc + 1, inflight := addFlight i (p.inflight.filter (fun v => v.live s.now)) })
  s.modEng n (fun e => { e with ts := q.ts, slot := if e.timed then e.slot + 1 else 0, slotAt := e.slotAt + per,
                                secLen := if e.timed then e.secLen + per else e.secLen })

/-- A further slot of a VMATCH that carries X (R112). -/
def State.xSlot (s : State) (n : Nat) (q : VisRun) : State :=
  let per := s.period n q.ts.toNat
  (s.applyVec n (s.uis n q.ts.toNat) 1 vecX (s.eng n).slotAt per).modEng n (fun e =>
    { e with ts := q.ts, slot := if e.timed then e.slot + 1 else 0, slotAt := e.slotAt + per,
             secLen := if e.timed then e.secLen + per else e.secLen })

/-- A stored vector has been issued: the loop count sees it (R139), and it is no longer ahead. -/
def State.vecUsed (s : State) (n : Nat) (q : VisRun) (v : CVec) : State :=
  match q.src with
  | .stored _ => s.modPe n (fun p =>
      { p with seen := if p.seen.any (fun w => w.1 = q.pc && w.2.index = v.index && w.2.num = v.num) then p.seen
                       else p.seen ++ [(q.pc, v)],
               vcache := p.vcache.map (fun w => if w.index = v.index ∧ w.num = v.num then { w with ahead := false } else w) })
  | _ => s

/-! The run of repetitions -/

/-- R112: whether a VMATCH ends at the slot boundary at tick t, and with which p7. -/
def VisRun.ends (q : VisRun) (t : Nat) : Option Bool :=
  match q.matchVis with
  | some m => if m ≤ t then some true else none
  | none => if q.next = q.reps + 1 ∧ q.lastVis ≤ t then some false else none

/-- The issue in progress stays where it is. -/
def State.keepRun (s : State) (n : Nat) (q : VisRun) : State := s.modPe n (fun p => { p with visRun := some q })

/-- The issue ends at the boundary of its last slot; a VMATCH gives p7 (R112). -/
def State.endRun (s : State) (n : Nat) (r : Option Bool) : State :=
  let s := s.modPe n (fun p => { p with visRun := none })
  match r with
  | some b => s.modEng n (fun e => e.setPred 7 b)
  | none => s

/-- Whether the issue is over at the boundary at tick t, and with which p7. -/
def VisRun.over (q : VisRun) (t : Nat) : Option (Option Bool) :=
  if q.isMatch then (q.ends t).map some else if q.next = q.reps + 1 then some none else none

/-- The slots that have begun by now, from the next one on, until the issue ends, a stored vector is missing, or the engine
stops. -/
def State.vecRun (n : Nat) : Nat → VisRun → State → State
  | 0, q, s => s.keepRun n q
  | f + 1, q, s =>
    let t := (s.eng n).slotAt
    if s.now < t then s.keepRun n q
    else
      match q.over t with
      | some r => s.endRun n r
      | none =>
        if q.next = q.reps + 1 then State.vecRun n f q (s.xSlot n q)
        else
          match s.vecOf n q.src q.lit q.next with
          | none => s.keepRun n q
          | some v =>
            if v.bad then s.mchk n q.pc
            else
              let vis := t + s.visAfter n q.ts.toNat
              let bad := s.vecBad n q.ts.toNat v.uis
              let q' := { q with next := q.next + 1, starving := false, lastVis := vis,
                                 matchVis := if q.hit = some q.next then some vis else q.matchVis }
              let s := ((s.oneVec n q (cleanVec v.uis)).vecUsed n q v).keepRun n q'
              if bad then s.illegal n q.pc else State.vecRun n f q' s

/-- Slots that a run can still take. -/
def State.vecFuel (s : State) (n : Nat) (q : VisRun) : Nat :=
  q.reps + 4 - q.next + s.visAfter n q.ts.toNat / max 1 (s.period n q.ts.toNat)

/-- A run goes on; in untimed code its next slot has not begun before now. At its end a pending STOP or SUSPEND acts
(R85). -/
def State.vecGo (s : State) (n : Nat) (q : VisRun) : State :=
  let s := State.vecRun n (s.vecFuel n q) q (s.modEng n (fun e => if e.timed then e else { e with slotAt := max e.slotAt s.now }))
  s.iff (s.pe n).visRun.isNone (fun s => s.boundary n)

/-- The issue in progress on PE n goes on where its next slot has begun. -/
def State.vecOn (s : State) (n : Nat) : State :=
  match (s.pe n).visRun with
  | some q => if (s.eng n).st = .running ∧ (s.eng n).slotAt ≤ s.now then s.vecGo n q else s
  | none => s

/-- Every issue in progress. -/
def State.vecAll (s : State) : State := s.each (List.range 64) (fun s n => s.vecOn n)

/-- Ticks to the next slot of PE n's issue in progress, where it still lies ahead. -/
def State.slotAhead (s : State) (n : Nat) : Option Nat :=
  if (s.pe n).visRun.isSome && decide ((s.eng n).st = .running) && decide (s.now < (s.eng n).slotAt) then
    some ((s.eng n).slotAt - s.now)
  else none

/-- Ticks to the next slot of any issue in progress. -/
def State.toSlot (s : State) : Option Nat := ((List.range 64).filterMap s.slotAhead).min?

end Sys2Proof.Machine
end

