-- ==== Sys2Proof/Machine/Time.lean ====
section
/-! DEFINITION. Wafer time: the clock, its wraps and resynchronisation, and the commands of chapter 02. -/

namespace Sys2Proof.Machine

/-- The EPOCH after one more increment: 1 follows 0xFFFF, and 0 becomes 1 (R36, R41). -/
def epochNext (e : BitVec 16) : BitVec 16 := if e = 0xFFFF then 1 else e + 1

/-- The EPOCH a WTC wrap leaves: 0 stays 0 (R35). -/
def epochWrap (e : BitVec 16) : BitVec 16 := if e = 0 then 0 else epochNext e

/-- EPOCH takes a value; a step from 0xFFFF to 1 sets EPOCH_WRAPPED (R36). -/
def State.setEpoch (s : State) (e : BitVec 16) (wrapped : Bool) : State :=
  { s with epoch := e }.iff wrapped (fun s => s.put (timeA 0x004) 7 true)

/-- TCLK runs for `d` ticks in which nothing falls. -/
def State.clock (s : State) (d : Nat) : State :=
  { s with now := s.now + d, wtc := if s.tst (timeA 0x004) 0 then s.wtc + BitVec.ofNat 48 d else s.wtc }

/-- The WTC has passed from 2^48 − 1 to 0 (R35, R48). -/
def State.wrap (s : State) : State :=
  (s.setEpoch (epochWrap s.epoch) (s.epoch = 0xFFFF)).beaconAll 2 0

/-- The vectors that begin at or after now count from the new WTC, `d` below the old one (R186). -/
def VecIssue.shift (d : BitVec 48) (now : Nat) (v : VecIssue) : List VecIssue :=
  let k := if now ≤ v.tick then 0 else min v.n ((now - v.tick + (v.period - 1)) / max 1 v.period)
  let late : VecIssue :=
    { v with vcyc := v.vcyc + BitVec.ofNat 40 k, n := v.n - k, rep0 := v.rep0 + k, tick := v.tick + k * v.period,
             wtc := v.wtc + BitVec.ofNat 48 (k * v.period) - d }
  (if 0 < k then [{ v with n := k }] else []) ++ (if k < v.n then [late] else [])

/-- R42: the engines that wait in AT, and the TDCs, judge against the new WTC; the playing ports keep the old count,
which is `d` ticks ahead of the new one, until their play ends; the others re-anchor now (R209, R235). -/
def State.rejudge (s : State) (d : BitVec 48) : State :=
  let s := s.each (List.range 96) (fun s e =>
    match (s.eng e).wait with
    | .atTarget t pair => if (s.eng e).st = .running then s.judgeAt e t pair else s
    | _ => s)
  let s := s.each (List.range 128) (fun s k => s.tdcRejudge k)
  let s := s.each (List.range 64) (fun s n => s.modPe n (fun p => { p with inflight := p.inflight.flatMap (VecIssue.shift d s.now) }))
  s.each (List.range 32) (fun s n =>
    if (s.tx n).st = .playing then s.modTx n (fun x => { x with anchor := x.anchor + d, anchorPend := true })
    else s.keepOld n ⟨30 * s.now, 0, (s.anchorDiff n + d).zeroExtend 64⟩)

/-- R269: the reference slot is the first that opens at or after now. -/
def State.slotRef (s : State) : State :=
  let k := (s.now - s.dec.slotTick + 9) / 10
  let ahead := s.dec.slotTick + 10 * k - s.now
  let s := s.wr64 (decA 0x068) ((s.wtc + BitVec.ofNat 48 ahead).zeroExtend 64)
  (s.wr64 (decA 0x070) ((s.dec.vsc + BitVec.ofNat 48 k).zeroExtend 64)).put (decA 0x004) 11 true

/-- A resynchronisation takes effect where the old Full Time would have shown `old` (R41, R42). -/
def State.resyncFrom (s : State) (old : Word64) (r : Armed) : State :=
  let new := match r.epoch with
    | none => epochNext s.epoch
    | some e => e
  let wrapped : Bool := match r.epoch with
    | none => s.epoch = 0xFFFF
    | some e => s.epoch ≠ 0 && decide (e < s.epoch)
  let s := { s with wtc := r.l, armed := none }.setEpoch new wrapped
  let s := (s.wr64 (timeA 0x028) s.full).wr64 (timeA 0x030) old
  let s := (s.count (timeA 0x040) (timeA 0x004) 16).put (timeA 0x004) 5 false
  let s := s.iff (r.epoch.isNone && s.tst 0x060 2) (fun s => s.irq 2)
  (((s.beaconAll 3 old).rejudge (r.t - r.l)).modDec (fun d => { d with resyncAt := some s.now })).slotRef

/-- The armed resynchronisation takes effect, one tick before which the old count read T − 1 (R37, R41). -/
def State.applyResync (s : State) (r : Armed) : State :=
  s.resyncFrom ((if r.t = 0 then epochWrap s.epoch else s.epoch) ++ r.t) r

/-- Ticks to the next multiple of 2^36, from 1 to 2^36. -/
def State.toBeacon (s : State) : Nat := 2 ^ 36 - s.wtc.toNat % 2 ^ 36

/-- Ticks to the armed resynchronisation. -/
def State.toResync (s : State) : Option Nat := s.armed.map (fun r => max 1 (atDiff r.t s.wtc))

/-- Ticks to the next moment at which something falls: a beacon or a wrap, the armed resynchronisation, a slot of a vector
issue in progress, or a TX setting. -/
def State.toNext (s : State) : Nat :=
  min (min (s.toResync.getD s.toBeacon) s.toBeacon) (min (s.toSlot.getD s.toBeacon) (s.toTxDue.getD s.toBeacon))

/-- What falls `k` ticks on: a resynchronisation takes the place of the count at which it falls, and the slots that begin
there count from the new one. -/
def State.moment (s : State) (k : Nat) : State :=
  let t := s.clock k
  let t :=
    if s.toResync = some k then
      (match s.armed with
       | some r => t.applyResync r
       | none => t)
    else if k = s.toBeacon then (if t.wtc = 0 then t.wrap else t.beaconAll 1 0)
    else t
  t.vecAll.txDueAll

/-- `d` ticks pass, with all that falls in them. -/
def State.pass : Nat → Nat → State → State
  | 0, d, s => s.clock d
  | f + 1, d, s => if d < s.toNext then s.clock d else State.pass f (d - s.toNext) (s.moment s.toNext)

/-- `d` ticks pass. While the PLL has not locked the WTC stands (R33). -/
def State.advance (s : State) (d : Nat) : State := if s.tst (timeA 0x004) 0 then State.pass d d s else s.clock d

/-- The clock is carried to an elapsed tick that is still ahead (log 2). -/
def State.advanceTo (s : State) (t : Nat) : State := s.advance (t - s.now)

/-- The vector issue in progress on PE n goes on until a test holds, it ends, or it finds its vector missing. -/
def State.vecTo (n : Nat) (p : State → Bool) : Nat → State → State
  | 0, s => s
  | f + 1, s => if p s ∨ (s.slotAhead n).isNone then s else State.vecTo n p f (s.advanceTo (s.eng n).slotAt)

/-- The slots PE n's issue in progress can still take. -/
def State.vecLeft (s : State) (n : Nat) : Nat :=
  match (s.pe n).visRun with
  | some q => s.vecFuel n q
  | none => 0

/-- The vector issue in progress on engine e comes to its end. -/
def State.vecWait (s : State) (e : Nat) : State :=
  if e < 64 then State.vecTo e (fun _ => false) (s.vecLeft e) s else s

/-- The clock is carried to a WTC value that is not past. -/
def State.advanceWtc (s : State) (t : BitVec 48) : State := if isPast t s.wtc then s else s.advance (atDiff t s.wtc)

/-- An empty queue: one tick passes (log 1). -/
def State.idle (s : State) : State := s.advance 1

/-! Commands -/

/-- REF_WARM_FALL: the filtered level falls (R30, R305). -/
def opRefWarmFall (s : State) : State :=
  if !s.seas.refWarm then s
  else
    let s := s.modSeas (fun x => { x with refWarm := false })
    if !s.dom 1 then s else ((s.put (timeA 0x004) 3 true).raise clsCal 0 0 0 0).tdcCold

def execRefWarmFall (s : State) : Host.Outcome State Fault Refusal := .next (opRefWarmFall s)

/-- REF_WARM_RISE: the filtered level rises (R30). -/
def execRefWarmRise (s : State) : Host.Outcome State Fault Refusal :=
  .next (s.modSeas (fun x => { x with refWarm := true }))

/-- REF_LOST: no REFCLK edge for 1 µs (R31). -/
def opRefLost (s : State) : State :=
  if !s.seas.refPresent then s
  else
    let s := s.modSeas (fun x => { x with refPresent := false })
    if !s.dom 1 then s
    else ((s.put (timeA 0x004) 4 true).put (timeA 0x004) 5 true).raise clsTiming 3 0 0 0

def execRefLost (s : State) : Host.Outcome State Fault Refusal := .next (opRefLost s)

/-- REFCLK_RETURN: REF_LOST clears, HOLDOVER stays (R31). -/
def execRefclkReturn (s : State) : Host.Outcome State Fault Refusal :=
  .next ((s.modSeas (fun x => { x with refPresent := true })).put (timeA 0x004) 4 false)

/-- PLL_LOCK: the WTC starts counting on the first tick after, and the slot counter with it (R33, R268). It needs
REFCLK and the SV domain. -/
def opPllLock (s : State) : State :=
  s.iff (s.seas.refPresent && s.dom 1 && !s.tst (timeA 0x004) 0) (fun s =>
    (s.put (timeA 0x004) 0 true).modDec (fun d => { d with vsc := 0, slotTick := s.now }))

def execPllLock (s : State) : Host.Outcome State Fault Refusal := .next (opPllLock s)

/-- The clock goes to a coming beacon moment `d` ticks ahead, where no resynchronisation falls before it. -/
def State.toMoment (s : State) (d : Nat) : State :=
  if !s.tst (timeA 0x004) 0 then s
  else
    match s.toResync with
    | some k => if k < d then s else s.advance d
    | none => s.advance d

/-- WTC_WRAP (R35, R37). -/
def execWtcWrap (s : State) : Host.Outcome State Fault Refusal := .next (s.toMoment (2 ^ 48 - s.wtc.toNat))

/-- PERIODIC_BEACON: WTC[35:0] reaches 0 (R48). -/
def execPeriodicBeacon (s : State) : Host.Outcome State Fault Refusal := .next (s.toMoment s.toBeacon)

/-- A write of TIME_CTRL.RESYNC (R38, R40). -/
def opResync (p : Path) (s : State) : State :=
  let t : BitVec 48 := (s.rd64 (timeA 0x020)).truncate 48
  let l : BitVec 48 := (s.rd64 (timeA 0x018)).truncate 48
  if s.rdf (timeA 0x008) 0 2 != 0 then s.cfgErr p
  else if atDiff t s.wtc < 1024 ∨ isPast t s.wtc then
    (s.put (timeA 0x004) 9 true).iff (s.tst 0x060 2) (fun s => s.irq 2)
  else
    let e := epochNext (if t.toNat ≤ s.wtc.toNat then epochWrap s.epoch else s.epoch)
    { s with armed := some ⟨t, l, none⟩ }.iff (s.rdf (decA 0x008) 30 2 = 1) (fun s =>
      s.modDec (fun d => { d with pairs := List.replicate 3 (t, l, e), pairNext := none }))

def execResync (p : Path) (s : State) : Host.Outcome State Fault Refusal := .next (s.host p (timeA 0x000) (opResync p))

/-- A write of TIME_CTRL.CANCEL (R40). -/
def opCancel (s : State) : State :=
  match s.armed with
  | some ⟨_, _, none⟩ => { s with armed := none }
  | _ => s

def execCancel (p : Path) (s : State) : Host.Outcome State Fault Refusal := .next (s.host p (timeA 0x000) opCancel)

/-- RESYNC_APPLY: the clock comes to T (R41). -/
def opResyncApply (s : State) : State :=
  if !s.tst (timeA 0x004) 0 then s
  else
    match s.toResync with
    | some k => s.advance k
    | none => s

def execResyncApply (s : State) : Host.Outcome State Fault Refusal := .next (opResyncApply s)

/-- LOCK: GLB_LOCK sets and stays until RESET_N (R10). -/
def execLock (p : Path) (s : State) : Host.Outcome State Fault Refusal :=
  .next (s.host p 0x008 (fun s => { s with glbLock := true }))

end Sys2Proof.Machine
end

