-- ==== Sys2Proof/Machine/Issue.lean ====
section
/-! DEFINITION. The issue of one instruction: what can keep it from issuing, the faults of its word, its predicate, and
the slot it fills (R59–R82, R311, R313). -/

namespace Sys2Proof.Machine

/-- What the issue of an instruction depends on: its group, whether it is timed-legal, whether its operands are free of
reserved values, the registers it reads and writes, whether it takes a tag, the timing set and slots of an FV
instruction, and whether untimed code stalls at it for a reason of its own. -/
structure Form where
  grp : Nat
  timedOk : Bool := true
  ok : Bool := true
  srcs : List Gr := []
  dst : List Gr := []
  tag : Bool := false
  vec : Option (BitVec 6 × Nat) := none
  stall : Bool := false
  keepAt : Bool := false
  target : Option Int := none      -- the target of a relative branch
  cond : Bool := false             -- a conditional branch other than LOOP

/-- R59: the groups an engine accepts. -/
def accepts (e grp : Nat) : Bool :=
  if 5 ≤ grp ∧ grp ≤ 8 then decide (e < 64)
  else if 9 ≤ grp ∧ grp ≤ 11 then decide (64 ≤ e)
  else decide (grp ≤ 12)

/-- R62: the guard holds. -/
def Eng.guard (x : Eng) (i : Iss) : Bool := x.pred i.psel != i.pinv

/-- Nothing issues on an engine that does not run, that waits, whose vector issue is not done, or that has run past the
last word (R66). -/
def State.ready (s : State) (e : Nat) : Bool :=
  let x := s.eng e
  x.st = .running && x.wait = .none && decide (x.pc < 16384) && (s.visOf e).isNone

/-- A slot that holds no vector issue: symbol X on every pin of a PE's bank for a period of the current timing set; a
granule on a WE (R74, R75). -/
def State.plainSlot (s : State) (e : Nat) : State :=
  let x := s.eng e
  if !x.timed ∨ x.st ≠ .running then s
  else if e < 64 then
    let p := s.period e x.ts.toNat
    (s.applyVec e (s.uis e x.ts.toNat) 1 vecX x.slotAt p).modEng e (fun x =>
      { x with slot := x.slot + 1, slotAt := x.slotAt + p, secLen := x.secLen + p })
  else s.modEng e (fun x => { x with slot := x.slot + 1, secLen := x.secLen + 1 })

/-- A predicated-off FV instruction fills its slots with symbol X (R62). -/
def State.offSlots (s : State) (e : Nat) (ts : BitVec 6) (k : Nat) : State :=
  if !(s.eng e).timed then s
  else
    let p := s.period e ts.toNat
    (s.applyVec e (s.uis e ts.toNat) k vecX (s.eng e).slotAt p).modEng e (fun x =>
      { x with ts := ts, slot := x.slot + BitVec.ofNat 32 k, slotAt := x.slotAt + k * p, secLen := x.secLen + k * p })

/-- The slots an instruction that did not execute, or that is no vector issue, fills. -/
def State.fillSlots (s : State) (e : Nat) (f : Form) (on : Bool) : State :=
  match f.vec with
  | some (ts, k) => if on then s else s.offSlots e ts k
  | none => s.plainSlot e

/-- The registers and the tag an instruction needs are there (R71). -/
def Eng.free (x : Eng) (f : Form) : Bool :=
  !(f.srcs.any x.busy) && !(f.dst.any x.busy) && (!f.tag || x.freeTag.isSome)

/-- The instruction at PC issues: the program counter moves past it, and it acts. -/
def State.run (s : State) (e : Nat) (f : Form) (body : State → State) : State :=
  let t := s.modEng e (fun x =>
    { x with lastPc := x.pc, pc := x.pc + 1, atTick := if f.keepAt then x.atTick else none,
             gapDone := f.keepAt && x.gapDone })
  (body t).fillSlots e f true

/-- A predicated-off instruction only moves the program counter and fills its slots (R62). -/
def State.skip (s : State) (e : Nat) (f : Form) : State :=
  (s.modEng e (fun x => { x with lastPc := x.pc, pc := x.pc + 1, atTick := none, gapDone := false })).fillSlots e f false

/-- R313: what the microword an instruction dispatches into gives. -/
def State.ucodeEcc (s : State) (e : Nat) : State := (s.engFault e clsEccC 1).count (mcsA 0x020) (mcsA 0x004) 29

/-! The loop buffer and the fetch path (R138, R139) -/

/-- Bytes of some stored vectors. -/
def vecBytes (l : List CVec) : Nat := (l.map (fun v => 8 * v.uis.length)).foldl (· + ·) 0

/-- The distinct stored vectors that the body `[lo, hi]` issued. -/
def Pe.bodyVecs (p : Pe) (lo hi : Nat) : List CVec :=
  (p.seen.filter (fun v => decide (lo ≤ v.1) && decide (v.1 ≤ hi))).foldl
    (fun l v => if l.any (fun w => w.index = v.2.index && w.num = v.2.num) then l else l ++ [v.2]) []

/-- A pass of the loop `[lo, hi]` ends: the buffer holds its vectors where they fit and no outer loop holds it. -/
def State.loopPass (s : State) (n lo hi : Nat) : State :=
  let p := s.pe n
  let vs := p.bodyVecs lo hi
  let inner : Bool := match p.lbuf with
    | none => true
    | some b => decide (lo ≤ b.lo) && decide (b.hi ≤ hi)
  if inner && !vs.isEmpty && decide (vecBytes vs ≤ 65536) then s.setPe n { p with lbuf := some ⟨lo, hi, vs⟩ } else s

/-- After an instruction at `pc`: a backward branch taken ends a pass; one not taken releases the buffer it closes; a
path other than the predicted one discards what was fetched ahead (R138, R139). -/
def State.path (s : State) (x : Iss) (f : Form) (pc : Nat) : State :=
  let e := x.eng.val
  match f.target with
  | none => s
  | some t =>
    if 64 ≤ e then s
    else
      let taken : Bool := (s.eng e).pc ≠ pc + 1
      let back := decide (t ≤ pc)
      let s := if taken && back then s.loopPass e t.toNat pc
        else s.modPe e (fun p => if p.lbuf.any (fun b => b.hi = pc) then { p with lbuf := none } else p)
      s.iff ((f.cond || x.psel ≠ 0 || x.pinv) && taken != back) (fun s => s.modPe e (fun p =>
        { p with vcache := p.vcache.filter (fun v => !v.ahead), lbuf := none }))

/-- An instruction whose word is good and whose guard holds executes, stalls, or is a TIMING fault (R71, R80). -/
def State.execute (s0 s : State) (x : Iss) (f : Form) (body : State → State) : State :=
  let e := x.eng.val
  let y := s.eng e
  if x.ucode = .ue then (s.put (mcsA 0x004) 30 true).mchk e y.pc
  else if y.free f && (y.timed || !f.stall) then ((s.iff (x.ucode = .ce) (fun s => s.ucodeEcc e)).run e f body).path x f y.pc
  else if y.timed then s.timing e y.pc
  else s0

/-- The decode faults, whatever the predicate (R59, R65), then the guard. -/
def State.decoded (s0 s : State) (x : Iss) (f : Form) (body : State → State) : State :=
  let e := x.eng.val
  let y := s.eng e
  if !accepts e f.grp || !f.ok || (y.timed && !f.timedOk) then s.illegal e y.pc
  else if y.guard x then s0.execute s x f body
  else (s.skip e f).path x f y.pc

/-- An instruction at its issue, or in its slot in a timed section. -/
def State.issue (s : State) (x : Iss) (f : Form) (body : State → State) : State :=
  let e := x.eng.val
  let r := s.vecWait e
  if !r.ready e then s
  else
    let t := r.advanceTo (if (r.eng e).timed then r.slotTick e else (r.eng e).slotAt)
    if x.fetch = .ue then t.mchk e (t.eng e).pc
    else s.decoded (t.iff (x.fetch = .ce) (fun t => t.engFault e clsEccC 1)) x f body

/-- A taken branch; a target outside 0–16,383 is ILLEGAL (R65, R95). -/
def State.branch (s : State) (e : Nat) (t : Int) : State :=
  if 0 ≤ t ∧ t ≤ 16383 then s.modEng e (fun x => { x with pc := t.toNat }) else s.illegal e (s.eng e).lastPc

/-- The target of a relative branch about to issue. -/
def State.jumpTo (s : State) (x : Iss) (off : Word) : Option Int := some ((s.eng x.eng.val).pc + off.toInt)

/-- The target of a relative branch: its address plus the signed offset (R60). -/
def State.relTarget (s : State) (e : Nat) (off : Word) : Int := (s.eng e).lastPc + off.toInt

/-- A register read by the instruction at hand. -/
def State.reg (s : State) (x : Iss) (r : Gr) : Word64 := (s.eng x.eng.val).reg r

/-- A register written by the instruction at hand. -/
def State.setReg (s : State) (x : Iss) (r : Gr) (v : Word64) : State := s.modEng x.eng.val (fun y => y.setReg r v)

/-- A tag taken by the instruction at hand. -/
def State.takeTag (s : State) (x : Iss) (rd : Gr) (v : Option Word64) (w : TagWhy) : State :=
  s.modEng x.eng.val (fun y => y.take ⟨rd, v, w⟩)

end Sys2Proof.Machine
end

