-- ==== Sys2Proof/Machine/Operands.lean ====
section
/-! DEFINITION. The operand forms of the instruction set (R60, R61, R90–R105) and what each gives. -/

namespace Sys2Proof.Machine

/-- R61: an immediate widened to 64 bits. -/
def widen (ty : ImmTy) (imm : Word) : Word64 :=
  match ty with
  | .u32 => imm.zeroExtend 64
  | .s32 => imm.signExtend 64
  | .q1_31 => (imm ++ (0 : Word))
  | .q16_16 => (imm.signExtend 64) <<< 16

/-- A shift amount: bits [5:0] (R96). -/
def shAmt (b : Word64) : Nat := fld b 0 6

/-- R94: the modifier values of BRC that are defined. -/
def brcOk (md : BitVec 8) : Bool := decide (md.toNat ≤ 5) || (decide (0x40 ≤ md.toNat) && decide (md.toNat ≤ 0xBF))

/-- R94: whether the condition holds for the register. -/
def brcHolds (md : BitVec 8) (a : Word64) : Bool :=
  if md = 0 then a = 0 else if md = 1 then a ≠ 0 else if md = 2 then a.toInt < 0 else if md = 3 then 0 ≤ a.toInt
  else if md = 4 then 0 < a.toInt else if md = 5 then a.toInt ≤ 0
  else if md.toNat < 0x80 then bit a (md.toNat % 64) else !bit a (md.toNat % 64)

/-- R97: the compare conditions. -/
def cmpHolds (mode : BitVec 3) (a b : Word64) : Bool :=
  match mode.toNat with
  | 0 => a = b
  | 1 => a ≠ b
  | 2 => a.toInt < b.toInt
  | 3 => b.toInt ≤ a.toInt
  | 4 => a.toNat < b.toNat
  | 5 => b.toNat ≤ a.toNat
  | 6 => a &&& b ≠ 0
  | _ => a &&& b = 0

/-- R97: the functions of PLOG; modes 5–7 are reserved. -/
def plogFn (mode : BitVec 3) (a b : Bool) : Bool :=
  match mode.toNat with
  | 0 => a && b
  | 1 => a || b
  | 2 => a != b
  | 3 => a && !b
  | _ => a

/-- R96: BFX. Bits above bit 63 read 0. -/
def bfxOf (a : Word64) (lsb wm1 : BitVec 6) : Word64 := BitVec.ofNat 64 (fld a lsb.toNat (wm1.toNat + 1))

/-- R96: BFI. Bits above bit 63 are discarded. -/
def bfiOf (d a : Word64) (lsb wm1 : BitVec 6) : Word64 := putf d lsb.toNat (wm1.toNat + 1) a.toNat

/-- The value a 16-bit operand gives (VMASK, LVW). -/
def State.src16 (s : State) (x : Iss) : Src16 → BitVec 16
  | .reg r => (s.reg x r).truncate 16
  | .imm v => v

/-- The registers a 16-bit operand reads. -/
def src16Regs : Src16 → List Gr
  | .reg r => [r]
  | .imm _ => []

/-- R103: the value a post names. -/
def State.postVal (s : State) (x : Iss) : PostSrc → Bool
  | .reg r => bit (s.reg x r) 0
  | .const b => b

def postRegs : PostSrc → List Gr
  | .reg r => [r]
  | .const _ => []

/-- R60: the target an FT operand gives at issue. -/
def State.atTarget (s : State) (x : Iss) : AtArg → BitVec 48
  | .absolute t => t
  | .relative t => s.wtc + t
  | .register r => (s.reg x r).truncate 48

def atRegs : AtArg → List Gr
  | .register r => [r]
  | _ => []

/-- The register a vector source reads (R113). -/
def vsrcRegs : VSrc → List Gr
  | .literal r => [r]
  | _ => []

/-- The g register an APG source reads. -/
def apgRegs : ApgSrc → List Gr
  | .reg r => [r]
  | .own _ => []

/-! Verdict references (R104) -/

/-- A verdict reference. -/
def vref (glob : Bool) (line : Nat) (slot : BitVec 48) : Word64 :=
  BitVec.ofNat 64 (glob.toNat * 2 ^ 63 + (line % 256) * 2 ^ 55 + slot.toNat)

/-- R105: no reserved bit set, and a global line is at most 63. -/
def vrefOk (v : Word64) : Bool := fld v 48 7 = 0 && (!bit v 63 || decide (fld v 55 8 ≤ 63))

end Sys2Proof.Machine
end

