-- ==== Sys2Proof/Machine/Fabric.lean ====
section
/-! DEFINITION. Verdict slots: their number, posts, reduction, and the results a read finds (R268–R274). -/

namespace Sys2Proof.Machine

/-! Configuration (R277) -/
def State.role (s : State) : Nat := s.rdf (decA 0x008) 30 2
def State.depth (s : State) : Nat := s.rdf (decA 0x008) 28 2
def State.upPort (s : State) : Nat := s.rdf (decA 0x008) 24 3
def State.downEn (s : State) (p : Nat) : Bool := s.tst (decA 0x008) (16 + p)
def State.nodeId (s : State) : Nat := s.rdf (decA 0x008) 0 6

/-- D_G (R271). -/
def State.dGlobal (s : State) : Nat := 64 + 80 * s.depth

/-- How many slots after the counter's base the slot that holds an elapsed tick is (R268). -/
def State.slotIdx (s : State) (tick : Nat) : Nat := (tick - s.dec.slotTick) / 10

/-- The number of the slot that holds an elapsed tick. -/
def State.slotNum (s : State) (tick : Nat) : BitVec 48 := s.dec.vsc + BitVec.ofNat 48 (s.slotIdx tick)

/-- DEC_VSC: the current slot. -/
def State.vscNow (s : State) : BitVec 48 := if s.tst (timeA 0x004) 0 then s.slotNum s.now else 0

/-- The elapsed tick at which slot index k opens. -/
def State.opensAt (s : State) (k : Nat) : Nat := s.dec.slotTick + 10 * k

/-! Lines -/

/-- The reduce operations and fail-safe values of the local lines, and of the global lines. -/
def State.lvOp (s : State) : BitVec 256 :=
  (List.range 8).foldl (fun v k => v ||| ((s.rd (decA (0x020 + 4 * k))).zeroExtend 256 <<< (32 * k))) 0
def State.lvFsafe (s : State) (line : Nat) : Bool := s.tst (decA (0x040 + 4 * (line / 32))) (line % 32)
def State.gvOp (s : State) : Word64 := s.rd64 (decA 0x010)
def State.gvFsafe (s : State) : Word64 := s.rd64 (decA 0x018)

/-- The fail-safe value of a line. -/
def State.fsafe (s : State) (glob : Bool) (line : Nat) : Bool :=
  if glob then bit s.gvFsafe line else s.lvFsafe line

/-- One post combined into a result: OR where the operation bit is 0, AND where it is 1 (R270). -/
def reduceOne {n : Nat} (op acc : BitVec n) (line : Nat) (v : Bool) : BitVec n :=
  setb acc line (if bit op line then bit acc line && v else bit acc line || v)

/-- The posts of one slot reduced, idle lines at their idle value. -/
def reducePosts {n : Nat} (op : BitVec n) (ps : List Post) : BitVec n :=
  ps.foldl (fun a p => reduceOne op a p.line p.val) op

/-- A module's own posts to a slot. -/
def State.postsOf (s : State) (glob : Bool) (slot : BitVec 48) : List Post :=
  s.dec.posts.filter (fun p => p.slot = slot && p.glob = glob)

/-- The local result of a slot. -/
def State.localBits (s : State) (slot : BitVec 48) : BitVec 256 :=
  match s.dec.local_.find? (fun r => r.slot = slot) with
  | some r => r.bits
  | none => reducePosts s.lvOp (s.postsOf false slot)

/-- A contribution merged under the global lines' operations (R271). -/
def mergeGv (op a b : Word64) : Word64 := (op &&& a &&& b) ||| (~~~op &&& (a ||| b))

/-- The contribution of a child port to a slot: `none` while the port is not in RUN, its peer is not JOINED, or its
frame failed, carried LOSS, or has not come (R270, R273). -/
def State.childGv (s : State) (slot : BitVec 48) (p : Nat) : Option Word64 :=
  if (s.kl p).st = 4 ∧ (s.kl p).peerJoined then
    match s.dec.contrib.find? (fun c => c.slot = slot && c.port = p) with
    | some c => c.gv
    | none => none
  else none

/-- A node's subtree contribution to a slot, and LOSS (R270, R273). -/
def State.subtree (s : State) (slot : BitVec 48) : Word64 × Bool :=
  (List.range 8).foldl (fun (a : Word64 × Bool) p =>
    if s.downEn p then
      (match s.childGv slot p with
       | some g => (mergeGv s.gvOp a.1 g, a.2)
       | none => (a.1, true))
    else a) (reducePosts s.gvOp (s.postsOf true slot), false)

/-- The global result of a slot that this module delivers, and LOSS (R271, R273, R274). -/
def State.globalBits (s : State) (slot : BitVec 48) : Word64 × Bool :=
  match s.dec.glob.find? (fun r => r.slot = slot) with
  | some r => (r.bits.truncate 64, r.loss)
  | none =>
    if s.role = 0 then (reducePosts s.gvOp (s.postsOf true slot), false)
    else if s.dec.nstate ≠ .joined then (s.gvFsafe, false)
    else if s.role = 1 then
      let (g, loss) := s.subtree slot
      (if loss then s.gvFsafe else g, loss)
    else
      match s.dec.down.find? (fun r => r.slot = slot) with
      | some r => (if r.loss then s.gvFsafe else r.bits.truncate 64, r.loss)
      | none => (s.gvFsafe, true)

/-- A post at an elapsed tick (R103, R270). A DETACHED root or node discards global posts (R274). -/
def State.post (s : State) (tick : Nat) (glob : Bool) (line : Nat) (v : Bool) : State :=
  if glob ∧ s.role ≠ 0 ∧ s.dec.nstate = .detached then s
  else
    let cur := s.slotNum tick
    s.modDec (fun d => { d with posts := d.posts.filter (fun p => decide ((cur - p.slot).toNat < 1200))
                                          ++ [⟨cur, glob, line, v⟩] })

/-! Reads (R105, R106, R272) -/

/-- What a read of a line finds. -/
inductive Verdict
  | value (b loss : Bool)
  | notYet
  | expired
  deriving DecidableEq, Repr

/-- The delay to visibility: D_L or D_G. -/
def State.visDelay (s : State) (glob : Bool) : Nat := if glob then s.dGlobal else Config.dLocal

/-- The newest slot index whose result is visible at an elapsed tick, where any is. -/
def State.newest (s : State) (glob : Bool) (tick : Nat) : Option Nat :=
  if s.tst (timeA 0x004) 0 ∧ s.dec.slotTick + s.visDelay glob ≤ tick then
    some ((tick - s.visDelay glob - s.dec.slotTick) / 10)
  else none

/-- The result of one line in one slot. -/
def State.lineResult (s : State) (glob : Bool) (line : Nat) (slot : BitVec 48) : Bool × Bool :=
  if glob then (let (g, loss) := s.globalBits slot; (bit g line, loss)) else (bit (s.localBits slot) line, false)

/-- R272: a read of a named slot at an elapsed tick. -/
def State.readSlot (s : State) (glob : Bool) (line : Nat) (slot : BitVec 48) (tick : Nat) : Verdict :=
  match s.newest glob tick with
  | none => .notYet
  | some k =>
    let a := (s.dec.vsc + BitVec.ofNat 48 k - slot).toNat
    if 2 ^ 47 ≤ a then .notYet
    else if a < 1024 ∧ a ≤ k then (let (b, loss) := s.lineResult glob line slot; .value b loss)
    else .expired

/-- R106: a CURRENT read at an elapsed tick: the newest visible slot, or the fail-safe value, marked. -/
def State.readCurrent (s : State) (glob : Bool) (line : Nat) (tick : Nat) : Bool × Bool :=
  match s.newest glob tick with
  | none => (s.fsafe glob line, true)
  | some k => s.lineResult glob line (s.dec.vsc + BitVec.ofNat 48 k)

/-- The parts of a VREF (R104). -/
def vrefG (v : Word64) : Bool := bit v 63
def vrefLine (v : Word64) : Nat := fld v 55 8
def vrefSlot (v : Word64) : BitVec 48 := v.truncate 48

/-- What a read of a VREF finds now. -/
def State.readVref (s : State) (v : Word64) : Verdict := s.readSlot (vrefG v) (vrefLine v) (vrefSlot v) s.now

/-- The value of a read by an engine, with the faults and the flag it brings: a LOSS result and a fail-safe value set
FSAFE in a timed section (R57, R80, R272, R273). -/
def State.engRead (s : State) (e : Nat) (v : Word64) (current : Bool) : Bool × State :=
  let timed := (s.eng e).timed
  let fs (s : State) : State := s.iff timed (fun s => s.modEng e (fun x => x.flag 2))
  if current then
    let (b, mark) := s.readCurrent (vrefG v) (vrefLine v) s.now
    (b, s.iff mark fs)
  else
    match s.readVref v with
    | .value b loss => (b, s.iff loss fs)
    | .notYet => (s.fsafe (vrefG v) (vrefLine v), fs (s.timingFault e 0))
    | .expired => (s.fsafe (vrefG v) (vrefLine v), fs (s.timingFault e 0))

/-- A waiting WAITV whose verdict is visible completes (R105). -/
def State.wakeWaits (s : State) : State :=
  s.each (List.range 96) (fun s e =>
    match (s.eng e).st, (s.eng e).wait with
    | .running, .verdict v rd =>
      (match s.readVref v with
       | .notYet => s
       | _ =>
         let (b, s) := s.engRead e v false
         s.modEng e (fun x => { (x.setReg rd (BitVec.ofNat 64 b.toNat)) with wait := .none }))
    | _, _ => s)

end Sys2Proof.Machine
end

