-- ==== Sys2Proof/Machine/Flags.lean ====
section
/-! DEFINITION. The flag computations: saturation and rounding of the FIX group (R57, R99), and the results its
instructions form. -/

namespace Sys2Proof.Machine

/-- A signed 64-bit result clamped to its format, and whether the clamp acted (R99). -/
def sat64 (v : Int) : Word64 × Bool :=
  let (c, b) := clampTo (-(2 ^ 63)) (2 ^ 63 - 1) v
  (BitVec.ofInt 64 c, b)

/-- A half of a complex result, clamped to Q1.31. -/
def sat32 (v : Int) : Word × Bool :=
  let (c, b) := clampTo (-(2 ^ 31)) (2 ^ 31 - 1) v
  (BitVec.ofInt 32 c, b)

/-- Real and imaginary part: [63:32] and [31:0]. -/
def cre (v : Word64) : Int := (hiHalf v).toInt
def cim (v : Word64) : Int := (loHalf v).toInt

/-- A complex result from its halves; each is clamped on its own. -/
def satC (re im : Int) : Word64 × Bool :=
  let (r, a) := sat32 re
  let (i, b) := sat32 im
  (join64 r i, a || b)

def qaddOf (a b : Word64) : Word64 × Bool := sat64 (a.toInt + b.toInt)
def qsubOf (a b : Word64) : Word64 × Bool := sat64 (a.toInt - b.toInt)
def qmulOf (a b : Word64) : Word64 × Bool := sat64 (roundShift (a.toInt * b.toInt) 63)
def qmulwOf (a b : Word64) : Word64 × Bool := sat64 (roundShift (a.toInt * b.toInt) 32)
def qmacOf (d a b : Word64) : Word64 × Bool := sat64 (d.toInt + roundShift (a.toInt * b.toInt) 63)

/-- The halves of a complex product, rounded (R99). -/
def cmulRe (a b : Word64) : Int := roundShift (cre a * cre b - cim a * cim b) 31
def cmulIm (a b : Word64) : Int := roundShift (cre a * cim b + cim a * cre b) 31
def cmulOf (a b : Word64) : Word64 × Bool := satC (cmulRe a b) (cmulIm a b)

/-- CMAC adds the rounded halves and clamps once (log 17). -/
def cmacOf (d a b : Word64) : Word64 × Bool := satC (cre d + cmulRe a b) (cim d + cmulIm a b)

/-- R100: CMAG2 never clamps. -/
def cmag2Of (a : Word64) : Word64 := BitVec.ofInt 64 (cre a * cre a + cim a * cim a)

def qabsOf (a : Word64) : Word64 × Bool := sat64 (if a.toInt < 0 then -a.toInt else a.toInt)
def qnegOf (a : Word64) : Word64 × Bool := sat64 (-a.toInt)

/-- SHRR: no result lies beyond its format. -/
def shrrOf (a b : Word64) : Word64 := BitVec.ofInt 64 (roundShift a.toInt (shAmt b))

/-- SATW: a signed width of wm1 + 1 bits. -/
def satwOf (a : Word64) (wm1 : BitVec 6) : Word64 × Bool :=
  let (c, b) := clampTo (-(2 ^ wm1.toNat)) (2 ^ wm1.toNat - 1) a.toInt
  (BitVec.ofInt 64 c, b)

/-- R100: PHASE, within 2^-24 of a turn of the exact angle (log 10); 0 for ra = 0. -/
def phaseOf (a : Word64) : Word64 :=
  if a = 0 then 0
  else BitVec.ofInt 64 ((turn32 (cre a) (cim a) + (Config.phaseOffset a).val - 257) % 2 ^ 32)

/-- floor(√v), bit by bit from bit `k − 1` of the root down. -/
def sqrtBits (v : Nat) : Nat → Nat → Nat
  | 0, r => r
  | k + 1, r => let t := r + 2 ^ k; sqrtBits v k (if t * t ≤ v then t else r)

/-- SQRTU. -/
def sqrtuOf (a : Word64) : Word64 := BitVec.ofNat 64 (sqrtBits a.toNat 32 0)

/-- A FIX result is written, and a clamp sets FLAGS.SAT (R57, R99). -/
def State.putSat (s : State) (x : Iss) (rd : Gr) (r : Word64 × Bool) : State :=
  s.modEng x.eng.val (fun y => if r.2 then (y.setReg rd r.1).flag 1 else y.setReg rd r.1)

end Sys2Proof.Machine
end

