-- ==== Sys2Proof/Machine/Fix.lean ====
section
/-! DEFINITION. The FIX group (R99, R100). -/

namespace Sys2Proof.Machine

/-- A FIX instruction. -/
def fixForm (srcs dst : List Gr) (tag : Bool := false) : Form := { grp := 2, srcs := srcs, dst := dst, tag := tag }

/-- A two-source FIX operation. -/
def State.fix3 (s : State) (x : Iss) (rd ra rb : Gr) (f : Word64 → Word64 → Word64 × Bool) : State :=
  s.issue x (fixForm [ra, rb] [rd]) (fun s => s.putSat x rd (f (s.reg x ra) (s.reg x rb)))

/-- One with the immediate in place of rb. -/
def State.fixI (s : State) (x : Iss) (rd ra : Gr) (ty : ImmTy) (imm : Word) (f : Word64 → Word64 → Word64 × Bool) : State :=
  s.issue x (fixForm [ra] [rd]) (fun s => s.putSat x rd (f (s.reg x ra) (widen ty imm)))

/-- One that reads rd as well. -/
def State.fixAcc (s : State) (x : Iss) (rd ra rb : Gr) (f : Word64 → Word64 → Word64 → Word64 × Bool) : State :=
  s.issue x (fixForm [ra, rb, rd] [rd]) (fun s => s.putSat x rd (f (s.reg x rd) (s.reg x ra) (s.reg x rb)))

/-- A one-source FIX operation. -/
def State.fix2 (s : State) (x : Iss) (rd ra : Gr) (f : Word64 → Word64 × Bool) : State :=
  s.issue x (fixForm [ra] [rd]) (fun s => s.putSat x rd (f (s.reg x ra)))

/-- One that takes a tag for 12 ticks (R73). -/
def State.fix12 (s : State) (x : Iss) (rd ra : Gr) (f : Word64 → Word64) : State :=
  s.issue x (fixForm [ra] [rd] true) (fun s => s.takeTag x rd (some (f (s.reg x ra))) (.exact (s.now + 12)))

/-- QADD -/
def execQadd (x : Iss) (rd ra rb : Gr) (s : State) : Host.Outcome State Fault Refusal :=
  .next (s.fix3 x rd ra rb qaddOf)

/-- QSUB -/
def execQsub (x : Iss) (rd ra rb : Gr) (s : State) : Host.Outcome State Fault Refusal :=
  .next (s.fix3 x rd ra rb qsubOf)

/-- QMUL -/
def execQmul (x : Iss) (rd ra rb : Gr) (s : State) : Host.Outcome State Fault Refusal :=
  .next (s.fix3 x rd ra rb qmulOf)

/-- QMULW -/
def execQmulw (x : Iss) (rd ra rb : Gr) (s : State) : Host.Outcome State Fault Refusal :=
  .next (s.fix3 x rd ra rb qmulwOf)

/-- QMAC -/
def execQmac (x : Iss) (rd ra rb : Gr) (s : State) : Host.Outcome State Fault Refusal :=
  .next (s.fixAcc x rd ra rb qmacOf)

/-- CMUL -/
def execCmul (x : Iss) (rd ra rb : Gr) (s : State) : Host.Outcome State Fault Refusal :=
  .next (s.fix3 x rd ra rb cmulOf)

/-- CMAC -/
def execCmac (x : Iss) (rd ra rb : Gr) (s : State) : Host.Outcome State Fault Refusal :=
  .next (s.fixAcc x rd ra rb cmacOf)

/-- CMAG2 -/
def execCmag2 (x : Iss) (rd ra : Gr) (s : State) : Host.Outcome State Fault Refusal :=
  .next (s.fix2 x rd ra (fun a => (cmag2Of a, false)))

/-- QABS -/
def execQabs (x : Iss) (rd ra : Gr) (s : State) : Host.Outcome State Fault Refusal := .next (s.fix2 x rd ra qabsOf)

/-- QNEG -/
def execQneg (x : Iss) (rd ra : Gr) (s : State) : Host.Outcome State Fault Refusal := .next (s.fix2 x rd ra qnegOf)

/-- SHRR -/
def execShrr (x : Iss) (rd ra rb : Gr) (s : State) : Host.Outcome State Fault Refusal :=
  .next (s.fix3 x rd ra rb (fun a b => (shrrOf a b, false)))

/-- SATW -/
def execSatw (x : Iss) (rd ra : Gr) (wm1 : BitVec 6) (s : State) : Host.Outcome State Fault Refusal :=
  .next (s.fix2 x rd ra (fun a => satwOf a wm1))

/-- PHASE -/
def execPhase (x : Iss) (rd ra : Gr) (s : State) : Host.Outcome State Fault Refusal := .next (s.fix12 x rd ra phaseOf)

/-- SQRTU -/
def execSqrtu (x : Iss) (rd ra : Gr) (s : State) : Host.Outcome State Fault Refusal := .next (s.fix12 x rd ra sqrtuOf)

/-- QADDI -/
def execQaddi (x : Iss) (rd ra : Gr) (ty : ImmTy) (imm : Word) (s : State) : Host.Outcome State Fault Refusal :=
  .next (s.fixI x rd ra ty imm qaddOf)

/-- QMULI -/
def execQmuli (x : Iss) (rd ra : Gr) (ty : ImmTy) (imm : Word) (s : State) : Host.Outcome State Fault Refusal :=
  .next (s.fixI x rd ra ty imm qmulOf)

/-- QMULWI -/
def execQmulwi (x : Iss) (rd ra : Gr) (ty : ImmTy) (imm : Word) (s : State) : Host.Outcome State Fault Refusal :=
  .next (s.fixI x rd ra ty imm qmulwOf)

/-- QMACI reads rd. -/
def execQmaci (x : Iss) (rd ra : Gr) (ty : ImmTy) (imm : Word) (s : State) : Host.Outcome State Fault Refusal :=
  .next (s.issue x (fixForm [ra, rd] [rd]) (fun s =>
    s.putSat x rd (qmacOf (s.reg x rd) (s.reg x ra) (widen ty imm))))

end Sys2Proof.Machine
end

