-- ==== Sys2Proof/Machine/Flow.lean ====
section
/-! DEFINITION. The FLOW group: branches, loops and calls (R94, R95). -/

namespace Sys2Proof.Machine

/-- A FLOW instruction. -/
def flowForm (srcs dst : List Gr) (ok : Bool := true) : Form := { grp := 0, srcs := srcs, dst := dst, ok := ok }

/-- BR -/
def execBr (x : Iss) (off : Word) (s : State) : Host.Outcome State Fault Refusal :=
  .next (s.issue x { flowForm [] [] with target := s.jumpTo x off } (fun s => s.branch x.eng.val (s.relTarget x.eng.val off)))

/-- BRC (R94) -/
def execBrc (x : Iss) (ra : Gr) (md : BitVec 8) (off : Word) (s : State) : Host.Outcome State Fault Refusal :=
  .next (s.issue x { flowForm [ra] [] (brcOk md) with target := s.jumpTo x off, cond := true } (fun s =>
    s.iff (brcHolds md (s.reg x ra)) (fun s => s.branch x.eng.val (s.relTarget x.eng.val off))))

/-- LOOP: a counter of 0 stays 0 and does not branch. -/
def opLoop (e : Nat) (c : Fin 8) (off : Word) (s : State) : State :=
  let v := (s.eng e).ctr c
  if v = 0 then s
  else (s.modEng e (fun y => y.setCtr c (v - 1))).iff (v ≠ 1) (fun s => s.branch e (s.relTarget e off))

def execLoop (x : Iss) (c : Fin 8) (off : Word) (s : State) : Host.Outcome State Fault Refusal :=
  .next (s.issue x { flowForm [] [] with target := s.jumpTo x off } (opLoop x.eng.val c off))

/-- A call: the return address is pushed, then the branch is taken. A full stack is ILLEGAL (R55), and so is a target
outside the program memory (R65); either way nothing is pushed. -/
def State.callTo (s : State) (e : Nat) (t : Int) : State :=
  let y := s.eng e
  if 16 ≤ y.rs.length ∨ t < 0 ∨ 16383 < t then s.illegal e y.lastPc
  else (s.setEng e { y with rs := BitVec.ofNat 14 (y.lastPc + 1) :: y.rs }).branch e t

/-- CALL -/
def execCall (x : Iss) (off : Word) (s : State) : Host.Outcome State Fault Refusal :=
  .next (s.issue x { flowForm [] [] with target := s.jumpTo x off } (fun s => s.callTo x.eng.val (s.relTarget x.eng.val off)))

/-- CALLR: the target is the full value of ra (R95). -/
def execCallr (x : Iss) (ra : Gr) (s : State) : Host.Outcome State Fault Refusal :=
  .next (s.issue x (flowForm [ra] []) (fun s => s.callTo x.eng.val (s.reg x ra).toNat))

/-- BRR -/
def execBrr (x : Iss) (ra : Gr) (s : State) : Host.Outcome State Fault Refusal :=
  .next (s.issue x (flowForm [ra] []) (fun s => s.branch x.eng.val (s.reg x ra).toNat))

/-- RET: an empty stack is ILLEGAL (R55). -/
def opRet (e : Nat) (s : State) : State :=
  let y := s.eng e
  match y.rs with
  | [] => s.illegal e y.lastPc
  | t :: r => (s.setEng e { y with rs := r }).branch e t.toNat

def execRet (x : Iss) (s : State) : Host.Outcome State Fault Refusal :=
  .next (s.issue x (flowForm [] []) (opRet x.eng.val))

/-- LDC: c ← (ra + imm) mod 2^32. -/
def execLdc (x : Iss) (c : Fin 8) (ra : Gr) (ty : ImmTy) (imm : Word) (s : State) : Host.Outcome State Fault Refusal :=
  .next (s.issue x (flowForm [ra] []) (fun s =>
    let v := s.reg x ra + widen ty imm
    s.modEng x.eng.val (fun y => y.setCtr c (loHalf v))))

/-- RDC: rd ← c. -/
def execRdc (x : Iss) (rd : Gr) (c : Fin 8) (s : State) : Host.Outcome State Fault Refusal :=
  .next (s.issue x (flowForm [] [rd]) (fun s => s.setReg x rd (((s.eng x.eng.val).ctr c).zeroExtend 64)))

end Sys2Proof.Machine
end

