-- ==== Sys2Proof/Machine/Int.lean ====
section
/-! DEFINITION. The INT group (R93, R96–R98). -/

namespace Sys2Proof.Machine

/-- An INT instruction. -/
def intForm (srcs dst : List Gr) (ok : Bool := true) : Form := { grp := 1, srcs := srcs, dst := dst, ok := ok }

/-- rd ← f ra rb. -/
def State.int3 (s : State) (x : Iss) (rd ra rb : Gr) (f : Word64 → Word64 → Word64) : State :=
  s.issue x (intForm [ra, rb] [rd]) (fun s => s.setReg x rd (f (s.reg x ra) (s.reg x rb)))

/-- rd ← f ra imm, the immediate widened (R61, R96). -/
def State.intI (s : State) (x : Iss) (rd ra : Gr) (ty : ImmTy) (imm : Word) (f : Word64 → Word64 → Word64) : State :=
  s.issue x (intForm [ra] [rd]) (fun s => s.setReg x rd (f (s.reg x ra) (widen ty imm)))

/-! What each operation computes -/

/-- ADD: ra + rb. -/
def aluAdd (a b : Word64) : Word64 := a + b

/-- SUB: ra − rb. -/
def aluSub (a b : Word64) : Word64 := a - b

/-- AND: ra AND rb. -/
def aluAnd (a b : Word64) : Word64 := a &&& b

/-- OR: ra OR rb. -/
def aluOr (a b : Word64) : Word64 := a ||| b

/-- XOR: ra XOR rb. -/
def aluXor (a b : Word64) : Word64 := a ^^^ b

/-- ANDN: ra AND NOT rb. -/
def aluAndn (a b : Word64) : Word64 := a &&& ~~~b

/-- SHL: shift left. -/
def aluShl (a b : Word64) : Word64 := a <<< shAmt b

/-- SHR: shift right, zero fill. -/
def aluShr (a b : Word64) : Word64 := a >>> shAmt b

/-- SAR: shift right, sign fill. -/
def aluSar (a b : Word64) : Word64 := a.sshiftRight (shAmt b)

/-- ROL: rotate left. -/
def aluRol (a b : Word64) : Word64 := a.rotateLeft (shAmt b)

/-- MUL: low 64 bits. -/
def aluMul (a b : Word64) : Word64 := a * b

/-- MULHU: high 64 bits, unsigned. -/
def aluMulhu (a b : Word64) : Word64 := BitVec.ofNat 64 (a.toNat * b.toNat / 2 ^ 64)

/-- MULHS: high 64 bits, signed. -/
def aluMulhs (a b : Word64) : Word64 := BitVec.ofInt 64 (a.toInt * b.toInt / 2 ^ 64)

/-- MIN: signed minimum. -/
def aluMin (a b : Word64) : Word64 := if a.toInt ≤ b.toInt then a else b

/-- MAX: signed maximum. -/
def aluMax (a b : Word64) : Word64 := if a.toInt ≤ b.toInt then b else a

/-- MINU: unsigned minimum. -/
def aluMinu (a b : Word64) : Word64 := if a.toNat ≤ b.toNat then a else b

/-- MAXU: unsigned maximum. -/
def aluMaxu (a b : Word64) : Word64 := if a.toNat ≤ b.toNat then b else a

/-! The three-register forms -/

/-- ADD -/
def execAdd (x : Iss) (rd ra rb : Gr) (s : State) : Host.Outcome State Fault Refusal :=
  .next (s.int3 x rd ra rb aluAdd)

/-- SUB -/
def execSub (x : Iss) (rd ra rb : Gr) (s : State) : Host.Outcome State Fault Refusal :=
  .next (s.int3 x rd ra rb aluSub)

/-- AND -/
def execAnd (x : Iss) (rd ra rb : Gr) (s : State) : Host.Outcome State Fault Refusal :=
  .next (s.int3 x rd ra rb aluAnd)

/-- OR -/
def execOr (x : Iss) (rd ra rb : Gr) (s : State) : Host.Outcome State Fault Refusal :=
  .next (s.int3 x rd ra rb aluOr)

/-- XOR -/
def execXor (x : Iss) (rd ra rb : Gr) (s : State) : Host.Outcome State Fault Refusal :=
  .next (s.int3 x rd ra rb aluXor)

/-- ANDN -/
def execAndn (x : Iss) (rd ra rb : Gr) (s : State) : Host.Outcome State Fault Refusal :=
  .next (s.int3 x rd ra rb aluAndn)

/-- SHL -/
def execShl (x : Iss) (rd ra rb : Gr) (s : State) : Host.Outcome State Fault Refusal :=
  .next (s.int3 x rd ra rb aluShl)

/-- SHR -/
def execShr (x : Iss) (rd ra rb : Gr) (s : State) : Host.Outcome State Fault Refusal :=
  .next (s.int3 x rd ra rb aluShr)

/-- SAR -/
def execSar (x : Iss) (rd ra rb : Gr) (s : State) : Host.Outcome State Fault Refusal :=
  .next (s.int3 x rd ra rb aluSar)

/-- ROL -/
def execRol (x : Iss) (rd ra rb : Gr) (s : State) : Host.Outcome State Fault Refusal :=
  .next (s.int3 x rd ra rb aluRol)

/-- MUL -/
def execMul (x : Iss) (rd ra rb : Gr) (s : State) : Host.Outcome State Fault Refusal :=
  .next (s.int3 x rd ra rb aluMul)

/-- MULHU -/
def execMulhu (x : Iss) (rd ra rb : Gr) (s : State) : Host.Outcome State Fault Refusal :=
  .next (s.int3 x rd ra rb aluMulhu)

/-- MULHS -/
def execMulhs (x : Iss) (rd ra rb : Gr) (s : State) : Host.Outcome State Fault Refusal :=
  .next (s.int3 x rd ra rb aluMulhs)

/-- MIN -/
def execMin (x : Iss) (rd ra rb : Gr) (s : State) : Host.Outcome State Fault Refusal :=
  .next (s.int3 x rd ra rb aluMin)

/-- MAX -/
def execMax (x : Iss) (rd ra rb : Gr) (s : State) : Host.Outcome State Fault Refusal :=
  .next (s.int3 x rd ra rb aluMax)

/-- MINU -/
def execMinu (x : Iss) (rd ra rb : Gr) (s : State) : Host.Outcome State Fault Refusal :=
  .next (s.int3 x rd ra rb aluMinu)

/-- MAXU -/
def execMaxu (x : Iss) (rd ra rb : Gr) (s : State) : Host.Outcome State Fault Refusal :=
  .next (s.int3 x rd ra rb aluMaxu)

/-- CLZ -/
def execClz (x : Iss) (rd ra : Gr) (s : State) : Host.Outcome State Fault Refusal :=
  .next (s.issue x (intForm [ra] [rd]) (fun s => s.setReg x rd (BitVec.ofNat 64 (leadingZeros (s.reg x ra)))))

/-- POPC -/
def execPopc (x : Iss) (rd ra : Gr) (s : State) : Host.Outcome State Fault Refusal :=
  .next (s.issue x (intForm [ra] [rd]) (fun s => s.setReg x rd (BitVec.ofNat 64 (popcount (s.reg x ra)))))

/-- BFX -/
def execBfx (x : Iss) (rd ra : Gr) (lsb wm1 : BitVec 6) (s : State) : Host.Outcome State Fault Refusal :=
  .next (s.issue x (intForm [ra] [rd]) (fun s => s.setReg x rd (bfxOf (s.reg x ra) lsb wm1)))

/-- BFI reads rd as a source. -/
def execBfi (x : Iss) (rd ra : Gr) (lsb wm1 : BitVec 6) (s : State) : Host.Outcome State Fault Refusal :=
  .next (s.issue x (intForm [ra, rd] [rd]) (fun s => s.setReg x rd (bfiOf (s.reg x rd) (s.reg x ra) lsb wm1)))

/-! The immediate forms -/

/-- ADDI -/
def execAddi (x : Iss) (rd ra : Gr) (ty : ImmTy) (imm : Word) (s : State) : Host.Outcome State Fault Refusal :=
  .next (s.intI x rd ra ty imm aluAdd)

/-- SUBI -/
def execSubi (x : Iss) (rd ra : Gr) (ty : ImmTy) (imm : Word) (s : State) : Host.Outcome State Fault Refusal :=
  .next (s.intI x rd ra ty imm aluSub)

/-- ANDI -/
def execAndi (x : Iss) (rd ra : Gr) (ty : ImmTy) (imm : Word) (s : State) : Host.Outcome State Fault Refusal :=
  .next (s.intI x rd ra ty imm aluAnd)

/-- ORI -/
def execOri (x : Iss) (rd ra : Gr) (ty : ImmTy) (imm : Word) (s : State) : Host.Outcome State Fault Refusal :=
  .next (s.intI x rd ra ty imm aluOr)

/-- XORI -/
def execXori (x : Iss) (rd ra : Gr) (ty : ImmTy) (imm : Word) (s : State) : Host.Outcome State Fault Refusal :=
  .next (s.intI x rd ra ty imm aluXor)

/-- ANDNI -/
def execAndni (x : Iss) (rd ra : Gr) (ty : ImmTy) (imm : Word) (s : State) : Host.Outcome State Fault Refusal :=
  .next (s.intI x rd ra ty imm aluAndn)

/-- SHLI -/
def execShli (x : Iss) (rd ra : Gr) (ty : ImmTy) (imm : Word) (s : State) : Host.Outcome State Fault Refusal :=
  .next (s.intI x rd ra ty imm aluShl)

/-- SHRI -/
def execShri (x : Iss) (rd ra : Gr) (ty : ImmTy) (imm : Word) (s : State) : Host.Outcome State Fault Refusal :=
  .next (s.intI x rd ra ty imm aluShr)

/-- SARI -/
def execSari (x : Iss) (rd ra : Gr) (ty : ImmTy) (imm : Word) (s : State) : Host.Outcome State Fault Refusal :=
  .next (s.intI x rd ra ty imm aluSar)

/-- ROLI -/
def execRoli (x : Iss) (rd ra : Gr) (ty : ImmTy) (imm : Word) (s : State) : Host.Outcome State Fault Refusal :=
  .next (s.intI x rd ra ty imm aluRol)

/-- MULI -/
def execMuli (x : Iss) (rd ra : Gr) (ty : ImmTy) (imm : Word) (s : State) : Host.Outcome State Fault Refusal :=
  .next (s.intI x rd ra ty imm aluMul)

/-- MULHUI -/
def execMulhui (x : Iss) (rd ra : Gr) (ty : ImmTy) (imm : Word) (s : State) : Host.Outcome State Fault Refusal :=
  .next (s.intI x rd ra ty imm aluMulhu)

/-- MULHSI -/
def execMulhsi (x : Iss) (rd ra : Gr) (ty : ImmTy) (imm : Word) (s : State) : Host.Outcome State Fault Refusal :=
  .next (s.intI x rd ra ty imm aluMulhs)

/-- MINI -/
def execMini (x : Iss) (rd ra : Gr) (ty : ImmTy) (imm : Word) (s : State) : Host.Outcome State Fault Refusal :=
  .next (s.intI x rd ra ty imm aluMin)

/-- MAXI -/
def execMaxi (x : Iss) (rd ra : Gr) (ty : ImmTy) (imm : Word) (s : State) : Host.Outcome State Fault Refusal :=
  .next (s.intI x rd ra ty imm aluMax)

/-- MINUI -/
def execMinui (x : Iss) (rd ra : Gr) (ty : ImmTy) (imm : Word) (s : State) : Host.Outcome State Fault Refusal :=
  .next (s.intI x rd ra ty imm aluMinu)

/-- MAXUI -/
def execMaxui (x : Iss) (rd ra : Gr) (ty : ImmTy) (imm : Word) (s : State) : Host.Outcome State Fault Refusal :=
  .next (s.intI x rd ra ty imm aluMaxu)

/-! Predicates, selection, special registers -/

/-- CMP -/
def execCmp (x : Iss) (pd : Fin 8) (ra rb : Gr) (mode : BitVec 3) (s : State) : Host.Outcome State Fault Refusal :=
  .next (s.issue x (intForm [ra, rb] []) (fun s =>
    s.modEng x.eng.val (fun y => y.setPred pd (cmpHolds mode (y.reg ra) (y.reg rb)))))

/-- CMPI -/
def execCmpi (x : Iss) (pd : Fin 8) (ra : Gr) (mode : BitVec 3) (ty : ImmTy) (imm : Word) (s : State) :
    Host.Outcome State Fault Refusal :=
  .next (s.issue x (intForm [ra] []) (fun s =>
    s.modEng x.eng.val (fun y => y.setPred pd (cmpHolds mode (y.reg ra) (widen ty imm)))))

/-- PLOG; modes 5–7 are reserved operands (R97). -/
def execPlog (x : Iss) (pd pa pb : Fin 8) (mode : BitVec 3) (s : State) : Host.Outcome State Fault Refusal :=
  .next (s.issue x (intForm [] [] (decide (mode.toNat ≤ 4))) (fun s =>
    s.modEng x.eng.val (fun y => y.setPred pd (plogFn mode (y.pred pa) (y.pred pb)))))

/-- SEL -/
def execSel (x : Iss) (rd ra rb : Gr) (p : Fin 8) (s : State) : Host.Outcome State Fault Refusal :=
  .next (s.issue x (intForm [ra, rb] [rd]) (fun s =>
    s.modEng x.eng.val (fun y => y.setReg rd (if y.pred p then y.reg ra else y.reg rb))))

/-- R56: a special register as MVS reads it; `none` where the number is reserved, or PE-only on a WE. -/
def State.special (s : State) (e : Nat) (num : BitVec 8) : Option Word64 :=
  let x := s.eng e
  match num.toNat with
  | 0x00 => some (s.wtc.zeroExtend 64)
  | 0x01 => some s.full
  | 0x02 => some (s.epoch.zeroExtend 64)
  | 0x03 => some (if x.timed then x.slot.zeroExtend 64 else 0)
  | 0x04 => some (BitVec.ofNat 64 e)
  | 0x05 => some (BitVec.ofNat 64 (s.rdf (decA 0x008) 0 6))
  | 0x06 => some (x.flags.zeroExtend 64)
  | 0x07 => some ((x.preds ||| 1).zeroExtend 64)
  | 0x08 => some (x.tagMask.zeroExtend 64)
  | 0x09 => some (BitVec.ofNat 64 x.rs.length)
  | 0x0A => if e < 64 then some (x.ts.zeroExtend 64) else none
  | 0x0B => if e < 64 then some ((s.pe e).sites.zeroExtend 64) else none
  | _ => none

/-- R56, R57: a special register as MVS writes it; `none` where it is read-only, reserved, or PE-only on a WE. -/
def State.setSpecial (s : State) (e : Nat) (num : BitVec 8) (v : Word64) : Option State :=
  match num.toNat with
  | 0x06 => some (s.modEng e (fun x => { x with flags := v.truncate 3 }))
  | 0x07 => some (s.modEng e (fun x => { x with preds := v.truncate 8 ||| 1 }))
  | 0x0B => if e < 64 then some (s.modPe e (fun x => { x with sites := v.truncate 4 })) else none
  | _ => none

/-- MVS: the faults of R56 are execution faults (R65). -/
def opMvs (x : Iss) (wr : Bool) (r : Gr) (num : BitVec 8) (s : State) : State :=
  let e := x.eng.val
  if wr then (s.setSpecial e num (s.reg x r)).getD (s.illegal e (s.eng e).lastPc)
  else
    match s.special e num with
    | some v => s.setReg x r v
    | none => s.illegal e (s.eng e).lastPc

def execMvs (x : Iss) (wr : Bool) (r : Gr) (num : BitVec 8) (s : State) : Host.Outcome State Fault Refusal :=
  .next (s.issue x (intForm (if wr then [r] else []) (if wr then [] else [r])) (opMvs x wr r num))

/-- LIH: rd[63:32] ← imm32, rd[31:0] ← ra[31:0] (R91). -/
def execLih (x : Iss) (rd ra : Gr) (imm : Word) (s : State) : Host.Outcome State Fault Refusal :=
  .next (s.issue x (intForm [ra] [rd]) (fun s => s.setReg x rd (join64 imm (loHalf (s.reg x ra)))))

end Sys2Proof.Machine
end

