-- ==== Sys2Proof/Machine/Hbm.lean ====
section
/-! DEFINITION. The HBM controller: counts, thresholds and what a read gives (R326–R332). -/

namespace Sys2Proof.Machine

/-- A corrected read of stack k counts, and the threshold fires once (R330). -/
def State.hbmCe (s : State) (k : Nat) : State :=
  let s := s.count (0x1010 + 4 * k) 0x1004 (28 + k)
  let thr := s.rd 0x100C
  s.iff (thr ≠ 0 && s.rd (0x1010 + 4 * k) == thr && !bit s.ceFired k) (fun s =>
    ({ s with ceFired := setb s.ceFired k true }.put 0x1004 (20 + k) true).raise clsEccC 1 7 k 0)

/-- An uncorrectable read at a byte address counts; the first latches its address (R331). -/
def State.hbmUe (s : State) (a : Nat) : State :=
  let s := s.count (0x1020 + 4 * stackOf a) 0x1004 (24 + stackOf a)
  s.iff (!s.tst 0x1004 19) (fun s => (s.put 0x1004 19 true).wr64 0x1030 (BitVec.ofNat 64 a))

/-- What the controller counts for a read of the word at `a` (R329–R331). -/
def State.hbmSeen (s : State) (a : Nat) (e : HbmEcc) : State :=
  match e with
  | .ok | .undetected => s
  | .ce | .miscorrected => s.hbmCe (stackOf a)
  | .ue => s.hbmUe a

/-- A read of the word at `a` under the code's verdict (R329): the word, 0 where uncorrectable, or a free value where the
wrong word was not seen for what it is; a miscorrected word is written back. -/
def State.hbmRead (s : State) (a : Nat) (e : HbmEcc) : Word64 × State :=
  match e with
  | .ok | .ce => (s.hbmW a, s.hbmSeen a e)
  | .ue => (0, s.hbmSeen a e)
  | .miscorrected => let (v, s) := s.free; (v, (s.hbmSeen a e).hbmPutW a v)
  | .undetected => let (v, s) := s.free; (v, s.hbmSeen a e)

/-- A detected error that was not corrected. -/
def isUe (e : HbmEcc) : Bool := e == .ue

/-- The patrol scrub reads the next unit of a READY stack (R332). -/
def opPatrolScrub (k : Fin 4) (e : HbmEcc) (s : State) : State :=
  let pos := s.rd (0x1040 + 4 * k.val)
  let a := k.val * 2 ^ 34 + pos.toNat * 64
  if !s.tst 0x1004 k.val ∨ s.rdf 0x1008 0 8 = 0 then s
  else
    let s := (s.hbmRead a e).2
    (s.iff (isUe e) (fun s => s.raise clsEccU 0 7 k.val 0)).wr (0x1040 + 4 * k.val) (BitVec.ofNat 32 ((pos.toNat + 1) % 2 ^ 28))

/-- PATROL_SCRUB -/
def execPatrolScrub (k : Fin 4) (e : HbmEcc) (s : State) : Host.Outcome State Fault Refusal := .next (opPatrolScrub k e s)

/-- The fill of stack k begins: zeros, not READY (R327). -/
def State.hbmFill (s : State) (k : Nat) : State :=
  ({ (s.hbmZero (k * 2 ^ 34) (2 ^ 34)) with filling := setb s.filling k true }).put 0x1004 k false

/-- HBM_FILL_DONE: the stack is READY and the scrub starts at 0 (R327, R332). -/
def opHbmFillDone (k : Fin 4) (s : State) : State :=
  if !bit s.filling k.val ∨ !s.stackOn k.val then s
  else ({ s with filling := setb s.filling k.val false }.put 0x1004 k.val true).wr (0x1040 + 4 * k.val) 0

def execHbmFillDone (k : Fin 4) (s : State) : Host.Outcome State Fault Refusal := .next (opHbmFillDone k s)

/-- R327: each INIT bit is judged on its own. -/
def opInit (p : Path) (which : BitVec 4) (s : State) : State :=
  s.each (List.range 4) (fun s k =>
    if !bit which k then s
    else if s.stackOn k && (List.range 96).all (fun e => (s.eng e).st = .stopped)
        && (List.range 64).all (fun c => (s.chan c).st = .idle) then s.hbmFill k
    else s.cfgErr p)

/-- INIT: a write of HBM_CTRL. -/
def execInit (p : Path) (which : BitVec 4) (s : State) : Host.Outcome State Fault Refusal :=
  .next (s.host p 0x1000 (opInit p which))

end Sys2Proof.Machine
end

