-- ==== Sys2Proof/Machine/TimeGroup.lean ====
section
/-! DEFINITION. The TIME group: launches, timed sections, posts and verdict reads (R44–R46, R74–R77, R103–R106, R386). -/

namespace Sys2Proof.Machine

/-- A TIME instruction. It occupies no slot where `slotless`. -/
def timeForm (s : State) (e : Nat) (srcs dst : List Gr) (timedOk slotless : Bool) : Form :=
  { grp := 4, srcs := srcs, dst := dst, timedOk := timedOk,
    vec := if slotless then some ((s.eng e).ts, 0) else none }

/-! Throttling gaps (R386) -/

/-- S: the elapsed ticks of the engine's most recent timed section. -/
def State.sectionLen (s : State) (e : Nat) : Nat :=
  let x := s.eng e
  if e < 64 then x.secLen else if x.secLen = 0 then 0 else (x.slotOff + s.granule * x.secLen + 14) / 15

/-- G of R386. -/
def gapOf (len duty : Nat) : Nat :=
  if duty = 0 ∨ 256 ≤ duty then 0 else min ((len * (256 - duty) + duty - 1) / duty) (2 ^ 27)

/-- The gap that the DUTY now in force puts before the engine's next section. -/
def State.gapLen (s : State) (e : Nat) : Nat := gapOf (s.sectionLen e) (s.rdf (thmA 0x00C) 0 9)

/-- A gap begins: the instruction has not issued, and issues when the gap ends. -/
def State.beginGap (s : State) (e : Nat) : State :=
  let g := s.gapLen e
  (s.count (thmA 0x010) (thmA 0x000) 31).modEng e (fun y =>
    { y with wait := .gap (s.now + g), pc := y.lastPc, throttled := true, atTick := none })

/-! AT -/

/-- AT at its issue (R44, R77). -/
def opAt (e : Nat) (pair : Bool) (t : BitVec 48) (s : State) : State :=
  if pair && !(s.eng e).gapDone && decide (0 < s.gapLen e) then s.beginGap e
  else (s.modEng e (fun y => { y with gapDone := false })).judgeAt e t pair

/-- AT -/
def execAtTarget (x : Iss) (pair : Bool) (arg : AtArg) (s : State) : Host.Outcome State Fault Refusal :=
  .next (s.issue x { timeForm s x.eng.val (atRegs arg) [] false false with keepAt := true }
    (fun s => opAt x.eng.val pair (s.atTarget x arg) s))

/-- AT_LAUNCH: the clock comes to the target of an engine that waits in AT (R44). -/
def opAtLaunch (e : Nat) (s : State) : State :=
  let y := s.eng e
  match y.st, y.wait with
  | .running, .atTarget t _ =>
    let s := s.toMoment (atDiff t s.wtc)
    (match (s.eng e).wait with
     | .atTarget t pair => s.judgeAt e t pair
     | _ => s)
  | _, _ => s

def execAtLaunch (e : Fin 96) (s : State) : Host.Outcome State Fault Refusal := .next (opAtLaunch e.val s)

/-! TBEGIN, TEND -/

/-- Positions of a fifteenth of a tick from a tick to the first TX sample edge at or after it: none in SUMMER; samples of
four positions in SPRING (R75). -/
def State.edgeOff (s : State) (tick : Nat) : Nat := if s.season = 1 then (4 - 15 * tick % 4) % 4 else 0

/-- The section opens (R76). -/
def State.openSection (s : State) (e : Nat) (ts : BitVec 6) : State :=
  let y := s.eng e
  let t := y.atTick.getD (s.now + 4)
  let s := s.iff (y.throttled && decide (e < 64)) (fun s => s.siteRes e (s.pe e).sites 4)
  s.modEng e (fun y => { y with timed := true, slot := 0, secLen := 0, slotAt := t, ts := ts, atTick := none,
                                slotOff := if e < 64 then 0 else s.edgeOff t, gapDone := false })

/-- TBEGIN at its issue (R76, R77, R386). -/
def opTbegin (e : Nat) (ts : BitVec 6) (s : State) : State :=
  let y := s.eng e
  if y.atTick.isNone && !y.gapDone && decide (0 < s.gapLen e) then s.beginGap e
  else (s.iff (y.atTick.isNone && !y.gapDone) (fun s => s.modEng e (fun y => { y with throttled := false }))).openSection
    e ts

/-- TBEGIN -/
def execTbegin (x : Iss) (ts : BitVec 6) (s : State) : Host.Outcome State Fault Refusal :=
  let f := timeForm s x.eng.val [] [] false true
  .next (s.issue x { f with keepAt := true, ok := decide (x.eng.val < 64) || ts = 0 } (opTbegin x.eng.val ts))

/-- TEND: the section closes when its last slot ends (R76); a pending STOP or SUSPEND then acts (R85). -/
def opTend (e : Nat) (s : State) : State :=
  let s := s.advanceTo (s.sectionEnd e)
  (s.modEng e (fun y => { y with timed := false, slot := 0, throttled := false })).boundary e

def execTend (x : Iss) (s : State) : Host.Outcome State Fault Refusal :=
  .next (s.issue x { timeForm s x.eng.val [] [] true true with ok := (s.eng x.eng.val).timed } (opTend x.eng.val))

/-! Posts -/

/-- A post at the issue tick; rd receives the reference (R103, R104). -/
def State.postNow (s : State) (x : Iss) (rd : Gr) (glob : Bool) (line : Nat) (v : Bool) : State :=
  (s.post s.now glob line v).setReg x rd (vref glob line (s.slotNum s.now))

/-- POSTV -/
def execPostv (x : Iss) (rd : Gr) (src : PostSrc) (line : BitVec 8) (s : State) : Host.Outcome State Fault Refusal :=
  .next (s.issue x (timeForm s x.eng.val (postRegs src) [rd] true false) (fun s =>
    s.postNow x rd false line.toNat (s.postVal x src)))

/-- POSTG -/
def execPostg (x : Iss) (rd : Gr) (src : PostSrc) (line : BitVec 6) (s : State) : Host.Outcome State Fault Refusal :=
  .next (s.issue x (timeForm s x.eng.val (postRegs src) [rd] true false) (fun s =>
    s.postNow x rd true line.toNat (s.postVal x src)))

/-! Reads -/

/-- Untimed code stalls at a read of a verdict that is not visible yet (R71). -/
def State.verdictStall (s : State) (x : Iss) (ra : Gr) (current : Bool) : Bool :=
  !current && vrefOk (s.reg x ra) && s.readVref (s.reg x ra) == .notYet

/-- RDV (R105, R106). -/
def opRdv (x : Iss) (rd ra : Gr) (current : Bool) (s : State) : State :=
  let e := x.eng.val
  let v := s.reg x ra
  if vrefOk v then
    let (b, s) := s.engRead e v current
    s.setReg x rd (BitVec.ofNat 64 b.toNat)
  else (s.setReg x rd 0).illegal e (s.eng e).lastPc

def execRdv (x : Iss) (rd ra : Gr) (current : Bool) (s : State) : Host.Outcome State Fault Refusal :=
  .next (s.issue x { timeForm s x.eng.val [ra] [rd] true false with stall := s.verdictStall x ra current }
    (opRdv x rd ra current))

/-- WAITV: the engine waits where the verdict is not visible yet (R105). -/
def opWaitv (x : Iss) (rd ra : Gr) (s : State) : State :=
  let e := x.eng.val
  let v := s.reg x ra
  if vrefOk v ∧ s.readVref v = .notYet then s.modEng e (fun y => { y with wait := .verdict v rd })
  else opRdv x rd ra false s

def execWaitv (x : Iss) (rd ra : Gr) (s : State) : Host.Outcome State Fault Refusal :=
  .next (s.issue x (timeForm s x.eng.val [ra] [rd] false false) (opWaitv x rd ra))

/-- BV (R105, R106). -/
def opBv (x : Iss) (ra : Gr) (val current : Bool) (off : Word) (s : State) : State :=
  let e := x.eng.val
  let v := s.reg x ra
  if vrefOk v then
    let (b, s) := s.engRead e v current
    s.iff (b == val) (fun s => s.branch e (s.relTarget e off))
  else s.illegal e (s.eng e).lastPc

def execBv (x : Iss) (ra : Gr) (val current : Bool) (off : Word) (s : State) : Host.Outcome State Fault Refusal :=
  .next (s.issue x { timeForm s x.eng.val [ra] [] true false with
      stall := s.verdictStall x ra current, target := s.jumpTo x off, cond := true }
    (opBv x ra val current off))

/-! The gap's end (R386, R387) -/

/-- THROTTLE_GAP_END: the instruction issues next. -/
def opThrottleGapEnd (e : Nat) (s : State) : State :=
  match (s.eng e).st, (s.eng e).wait with
  | .running, .gap t => (s.advanceTo t).modEng e (fun y => { y with wait := .none, gapDone := true })
  | _, _ => s

def execThrottleGapEnd (e : Fin 96) (s : State) : Host.Outcome State Fault Refusal := .next (opThrottleGapEnd e.val s)

end Sys2Proof.Machine
end

