-- ==== Sys2Proof/Machine/Mem.lean ====
section
/-! DEFINITION. The MEM group and the data cache (R66–R70, R101, R102). -/

namespace Sys2Proof.Machine

/-- A MEM instruction. -/
def memForm (srcs dst : List Gr) (timedOk tag : Bool) : Form :=
  { grp := 3, srcs := srcs, dst := dst, timedOk := timedOk, tag := tag }

/-- R101: the DMEM word and the HBM byte address that a sum names. -/
def dmemWord (v : Word64) : Nat := fld v 0 14
def hbmAddr (v : Word64) : Nat := fld v 3 33 * 8

/-- LD: the word is read at issue and written 6 ticks later; an uncorrectable one is a machine check (R69, R101). -/
def opLd (x : Iss) (rd : Gr) (sum : Word64) (ecc : Ecc) (s : State) : State :=
  let e := x.eng.val
  if ecc = .ue then s.mchk e (s.eng e).lastPc
  else (s.iff (ecc = .ce) (fun s => s.engFault e clsEccC 1)).takeTag x rd (some (s.dmem e (dmemWord sum)))
    (.exact (s.now + 6))

/-- LD -/
def execLd (x : Iss) (rd ra : Gr) (ty : ImmTy) (imm : Word) (ecc : Ecc) (s : State) : Host.Outcome State Fault Refusal :=
  .next (s.issue x (memForm [ra] [rd] true true) (fun s => opLd x rd (s.reg x ra + widen ty imm) ecc s))

/-- ST takes effect at issue (R101). -/
def execSt (x : Iss) (ra rb : Gr) (imm : Word) (s : State) : Host.Outcome State Fault Refusal :=
  .next (s.issue x (memForm [ra, rb] [] true false) (fun s =>
    s.setDmem x.eng.val (dmemWord (s.reg x ra + widen .s32 imm)) (s.reg x rb)))

/-! The data cache (R70): 64 sets of 4 lines, most recently used first -/

/-- The line with a number brought to the front, in place of its set's least recently used line where it is new. -/
def cachePut (c : List DLine) (l : DLine) : List DLine :=
  let rest := c.filter (fun d => d.line != l.line)
  let inSet := rest.filter (fun d => d.line % 64 == l.line % 64)
  if inSet.length < 4 then l :: rest
  else l :: rest.filter (fun d => d.line % 64 != l.line % 64 || (inSet.take 3).any (fun w => w.line == d.line))

/-- The line that holds a byte address. -/
def cacheLine (c : List DLine) (a : Nat) : Option DLine := c.find? (fun d => d.line == a / 64)

/-- The eight words of the line that holds a byte address. -/
def State.hbmLine (s : State) (a : Nat) : List Word64 := (List.range 8).map (fun i => s.hbmW (a / 64 * 64 + 8 * i))

/-- LDH (R70, R102, R328). -/
def opLdh (x : Iss) (rd : Gr) (a : Nat) (ecc : HbmEcc) (s : State) : State :=
  let e := x.eng.val
  if !s.stackOn (stackOf a) then (s.engFault e clsEccU 2).takeTag x rd (some 0) .average
  else
    match cacheLine (s.eng e).dcache a with
    | some l =>
      (s.modEng e (fun y => { y with dcache := cachePut y.dcache l })).takeTag x rd (some (l.words.getD (a / 8 % 8) 0))
        .average
    | none =>
      let (v, s) := s.hbmRead a ecc
      if isUe ecc then (s.engFault e clsEccU 2).takeTag x rd (some 0) .average
      else
        let l : DLine := ⟨a / 64, (s.hbmLine a).set (a / 8 % 8) v⟩
        (s.modEng e (fun y => { y with dcache := cachePut y.dcache l })).takeTag x rd (some v) .average

/-- LDH -/
def execLdh (x : Iss) (rd ra : Gr) (ty : ImmTy) (imm : Word) (ecc : HbmEcc) (s : State) :
    Host.Outcome State Fault Refusal :=
  .next (s.issue x (memForm [ra] [rd] false true) (fun s => opLdh x rd (hbmAddr (s.reg x ra + widen ty imm)) ecc s))

/-- STH: written through, and the line updated where the cache holds it (R70, R102, R328). -/
def opSth (x : Iss) (rd : Gr) (a : Nat) (v : Word64) (s : State) : State :=
  let e := x.eng.val
  if !s.stackOn (stackOf a) then (s.engFault e clsEccU 2).setReg x rd 0
  else
    let s := s.hbmPutW a v
    let s := match cacheLine (s.eng e).dcache a with
      | some l => s.modEng e (fun y => { y with dcache := cachePut y.dcache ⟨l.line, l.words.set (a / 8 % 8) v⟩ })
      | none => s
    s.takeTag x rd (some 0) (.store (Fin.ofNat 4 (stackOf a)))

/-- STH -/
def execSth (x : Iss) (rd ra rb : Gr) (imm : Word) (s : State) : Host.Outcome State Fault Refusal :=
  .next (s.issue x (memForm [ra, rb] [rd] false true) (fun s =>
    opSth x rd (hbmAddr (s.reg x ra + widen .s32 imm)) (s.reg x rb) s))

/-- HBM_STORE_ACK: the tag is free and the destination receives 0. -/
def opHbmStoreAck (e tag : Nat) (s : State) : State :=
  match (s.eng e).tag? tag with
  | some ⟨_, _, .store _⟩ => s.modEng e (fun y => y.done tag 0)
  | _ => s

def execHbmStoreAck (e : Fin 96) (tag : Fin 16) (s : State) : Host.Outcome State Fault Refusal :=
  .next (opHbmStoreAck e.val tag.val s)

end Sys2Proof.Machine
end

