-- ==== Sys2Proof/Machine/Sys.lean ====
section
/-! DEFINITION. The SYS group but for CSR: signals, FENCE, DMAK and HALT (R87, R88, R109). -/

namespace Sys2Proof.Machine

/-- SIG (R87). -/
def opSig (e : Nat) (sync : Bool) (code : BitVec 16) (s : State) : State :=
  let y := s.eng e
  if sync then (s.setEng e { y with sigSync := some code, st := .sigWait }).engIrq e 1
  else if y.sigQ.length < 4 then (s.setEng e { y with sigQ := y.sigQ ++ [code] }).engIrq e 0
  else (s.count (engA e 0x018) (engA e 0x004) 19).engFault e clsHost 0

/-- SIG: untimed code stalls while the four places are full. -/
def execSig (x : Iss) (sync : Bool) (code : BitVec 16) (s : State) : Host.Outcome State Fault Refusal :=
  let y := s.eng x.eng.val
  .next (s.issue x { grp := 12, timedOk := !sync, stall := !sync && !y.timed && decide (4 ≤ y.sigQ.length) }
    (opSig x.eng.val sync code))

/-- FENCE: it waits until no tag is busy; stores hold tags (R102). -/
def execFence (x : Iss) (inv : Bool) (s : State) : Host.Outcome State Fault Refusal :=
  .next (s.issue x { grp := 12, timedOk := false, stall := !(s.eng x.eng.val).tags.isEmpty }
    (fun s => s.iff inv (fun s => s.modEng x.eng.val (fun y => { y with dcache := [] }))))

/-- DMAK hands its descriptor over; DMAK_ACCEPT answers (R109). -/
def execDmak (x : Iss) (rd ra : Gr) (d : Fin 4) (c : Fin 16) (s : State) : Host.Outcome State Fault Refusal :=
  .next (s.issue x { grp := 12, timedOk := false, srcs := [ra], dst := [rd], tag := true } (fun s =>
    s.takeTag x rd none (.dmak d c ((s.reg x ra).truncate 14))))

/-- HALT (R88). -/
def execHalt (x : Iss) (s : State) : Host.Outcome State Fault Refusal :=
  .next (s.issue x { grp := 12, timedOk := false } (fun s =>
    s.engStop x.eng.val 1 (s.eng x.eng.val).lastPc))

end Sys2Proof.Machine
end

