-- ==== Sys2Proof/Machine/Vec.lean ====
section
/-! DEFINITION. The VEC group (R111–R113, R126–R147). -/

namespace Sys2Proof.Machine

/-! Checks before an issue -/

/-- R128: a vector period or unit interval too short for SPRING. -/
def State.springShort (s : State) (n t : Nat) : Bool :=
  s.season = 1 && (decide (s.period n t < 4) || (List.range 16).any (fun l => decide (2 * s.period n t < s.uis n t l)))

/-- R136. -/
def State.storedBad (s : State) (n t : Nat) (i : BitVec 26) : Bool :=
  let e := s.vbt n i.toNat
  decide ((s.pe n).vbtSize ≤ i.toNat) || !vbtOk e || (List.range 16).any (fun l => decide (vbtUi e < s.uis n t l))

/-- An uncorrectable table entry (R141). -/
def State.entryBad (s : State) (n : Nat) (i : BitVec 26) : Bool :=
  (s.pe n).vcache.any (fun v => v.index = i && v.num = 65536 && v.bad)

/-- A vector issue at its first slot (R128, R136, R141). -/
def State.vecStart (s : State) (n : Nat) (q : VisRun) (ecc : Ecc) : State :=
  if s.springShort n q.ts.toNat then s.illegal n q.pc
  else
    match q.src with
    | .stored i =>
      if s.entryBad n i then s.mchk n q.pc
      else if s.storedBad n q.ts.toNat i then s.illegal n q.pc
      else if ecc = .ue then s.mchk n q.pc
      else (s.iff (ecc = .ce) (fun s => s.engFault n clsEccC 1)).vecGo n q
    | _ => s.vecGo n q

/-- R140: untimed code stalls until the first stored vector is there, where the issue is not refused. -/
def State.vecStall (s : State) (n : Nat) (ts : BitVec 6) (src : VSrc) : Bool :=
  match src with
  | .stored i => !s.springShort n ts.toNat && !s.entryBad n i && !s.storedBad n ts.toNat i && (s.vecOf n src 0 0).isNone
  | _ => false

/-- A vector issue. -/
def State.visForm (s : State) (x : Iss) (ts : BitVec 6) (rep : BitVec 16) (src : VSrc) : Form :=
  { grp := 5, srcs := vsrcRegs src, vec := some (ts, rep.toNat + 1),
    stall := !(s.eng x.eng.val).timed && s.vecStall x.eng.val ts src }

/-- The value a literal source has at the issue. -/
def State.vecLit (s : State) (x : Iss) (src : VSrc) : Word64 :=
  match src with
  | .literal g => s.reg x g
  | _ => 0

/-- VIS -/
def execVis (x : Iss) (ts : BitVec 6) (rep : BitVec 16) (src : VSrc) (ecc : Ecc) (s : State) :
    Host.Outcome State Fault Refusal :=
  .next (s.issue x (s.visForm x ts rep src) (fun s =>
    s.vecStart x.eng.val { pc := (s.eng x.eng.val).lastPc, ts := ts, reps := rep.toNat, src := src, lit := s.vecLit x src } ecc))

/-- VMATCH: `hit` is the first repetition that matches, where one does. -/
def execVmatch (x : Iss) (ts : BitVec 6) (rep : BitVec 16) (src : VSrc) (ecc : Ecc) (hit : Option (BitVec 16))
    (s : State) : Host.Outcome State Fault Refusal :=
  .next (s.issue x (s.visForm x ts rep src) (fun s =>
    s.vecStart x.eng.val
      { pc := (s.eng x.eng.val).lastPc, ts := ts, reps := rep.toNat, src := src, lit := s.vecLit x src, isMatch := true,
        hit := (hit.filter (fun h => h ≤ rep)).map BitVec.toNat } ecc))

/-! VFAIL, VSTV, VMASK -/

/-- The flags that VFAIL reads (R111). -/
def Pe.failMask (p : Pe) (site : Fin 4) (any : Bool) : BitVec 4 := if any then p.sites else BitVec.twoPow 4 site.val

/-- The flags read are cleared; a fail that becomes visible in the tick sets its flag again. -/
def Pe.clear (p : Pe) (m : BitVec 4) (now : Nat) : Pe :=
  { p with ffail := (p.ffail &&& ~~~m) ||| (if p.ffailAt = now then p.ffailNew else 0) }

/-- VFAIL (R111). -/
def opVfail (e : Nat) (site : Fin 4) (any clr : Bool) (off : Word) (s : State) : State :=
  let p := s.pe e
  let m := p.failMask site any
  (s.iff clr (fun s => s.setPe e (p.clear m s.now))).iff (p.ffail &&& m ≠ 0) (fun s =>
    s.branch e (s.relTarget e off))

def execVfail (x : Iss) (site : Fin 4) (any clr : Bool) (off : Word) (s : State) : Host.Outcome State Fault Refusal :=
  .next (s.issue x { grp := 5, target := s.jumpTo x off, cond := true } (opVfail x.eng.val site any clr off))

/-- R113: every symbol of a Starve Vector is 0x0 to 0x9. -/
def starveOk (v : Word64) : Bool := (List.range 16).all (fun l => decide (fld v (4 * l) 4 ≤ 9))

/-- VSTV (R113). -/
def opVstv (e : Nat) (v : Word64) (s : State) : State :=
  if starveOk v then s.wr64 (peA e 0x1010) v else s.illegal e (s.eng e).lastPc

def execVstv (x : Iss) (ra : Gr) (s : State) : Host.Outcome State Fault Refusal :=
  .next (s.issue x { grp := 5, srcs := [ra] } (fun s => opVstv x.eng.val (s.reg x ra) s))

/-- VMASK (R113). -/
def execVmask (x : Iss) (src : Src16) (s : State) : Host.Outcome State Fault Refusal :=
  .next (s.issue x { grp := 5, srcs := src16Regs src } (fun s =>
    s.modPe x.eng.val (fun p => { p with vmask := s.src16 x src })))

end Sys2Proof.Machine
end

