-- ==== Sys2Proof/Machine/Apg.lean ====
section
/-! DEFINITION. The APG group (R114, R115, R149). -/

namespace Sys2Proof.Machine

/-- An APG instruction. -/
def apgForm (srcs dst : List Gr) (ok : Bool := true) : Form := { grp := 6, srcs := srcs, dst := dst, ok := ok }

/-- The limits of configuration k: XMIN, XMAX, YMIN, YMAX. -/
structure Lim where
  x0 : Nat
  x1 : Nat
  y0 : Nat
  y1 : Nat

def State.lim (s : State) (n : Nat) (k : Fin 4) : Lim :=
  let a := fun o => s.rdf (peA n (0x1120 + 16 * k.val + o)) 0 24
  ⟨a 0, a 4, a 8, a 12⟩

/-- R149: limits that make a step ILLEGAL. -/
def Lim.bad (l : Lim) : Bool := decide (l.x1 < l.x0) || decide (l.y1 < l.y0)

/-- Both coordinates lie within the limits. -/
def Lim.has (l : Lim) (x y : Nat) : Bool :=
  decide (l.x0 ≤ x) && decide (x ≤ l.x1) && decide (l.y0 ≤ y) && decide (y ≤ l.y1)

/-- R114: the start of a mode's order. -/
def Lim.start (l : Lim) (mode : Nat) : Nat × Nat := if mode = 1 ∨ mode = 3 then (l.x1, l.y1) else (l.x0, l.y0)

/-- The next of one coordinate in ascending order, and whether it wrapped. -/
def stepUp (lo hi v : Nat) : Nat × Bool := if v = hi then (lo, true) else (v + 1, false)

/-- The next of one coordinate in descending order, and whether it wrapped. -/
def stepDown (lo hi v : Nat) : Nat × Bool := if v = lo then (hi, true) else (v - 1, false)

/-- R114: one step from an address within the limits, and whether it wrapped. -/
def Lim.next (l : Lim) (mode x y : Nat) : Nat × Nat × Bool :=
  match mode with
  | 0 => let (x', w) := stepUp l.x0 l.x1 x
         if w then (let (y', v) := stepUp l.y0 l.y1 y; (x', y', v)) else (x', y, false)
  | 1 => let (x', w) := stepDown l.x0 l.x1 x
         if w then (let (y', v) := stepDown l.y0 l.y1 y; (x', y', v)) else (x', y, false)
  | 2 => let (y', w) := stepUp l.y0 l.y1 y
         if w then (let (x', v) := stepUp l.x0 l.x1 x; (x', y', v)) else (x, y', false)
  | 3 => let (y', w) := stepDown l.y0 l.y1 y
         if w then (let (x', v) := stepDown l.x0 l.x1 x; (x', y', v)) else (x, y', false)
  | _ => let (x', w) := stepUp l.x0 l.x1 x
         let (y', v) := stepUp l.y0 l.y1 y
         (x', y', w && v)

/-- R114: a step with the start rule. -/
def Lim.step (l : Lim) (mode x y : Nat) : Nat × Nat × Bool :=
  let (a, b) := if l.has x y then (x, y) else l.start mode
  l.next mode a b

/-- R115: the step of AGAL, which skips the base address. -/
def Lim.gal (l : Lim) (x y bx by_ : Nat) : Nat × Nat × Bool :=
  let (a, b, w) := l.step 0 x y
  if a = bx ∧ b = by_ then (let (c, d, v) := l.next 0 a b; (c, d, w || v)) else (a, b, w)

/-- A pair and a predicate written. -/
def State.setPair (s : State) (e : Nat) (k : Fin 4) (pd : Fin 8) (r : Nat × Nat × Bool) : State :=
  s.modEng e (fun y => ((y.setAx k (BitVec.ofNat 24 r.1)).setAy k (BitVec.ofNat 24 r.2.1)).setPred pd r.2.2)

/-- AXI -/
def execAxi (x : Iss) (k : Fin 4) (src : ApgSrc) (ty : ImmTy) (imm : Word) (s : State) :
    Host.Outcome State Fault Refusal :=
  .next (s.issue x (apgForm (apgRegs src) []) (fun s =>
    let v : Word64 := match src with
      | .reg r => s.reg x r
      | .own j => ((s.eng x.eng.val).axr j).zeroExtend 64
    s.modEng x.eng.val (fun y => y.setAx k ((v + widen ty imm).truncate 24))))

/-- AYI -/
def execAyi (x : Iss) (k : Fin 4) (src : ApgSrc) (ty : ImmTy) (imm : Word) (s : State) :
    Host.Outcome State Fault Refusal :=
  .next (s.issue x (apgForm (apgRegs src) []) (fun s =>
    let v : Word64 := match src with
      | .reg r => s.reg x r
      | .own j => ((s.eng x.eng.val).ayr j).zeroExtend 64
    s.modEng x.eng.val (fun y => y.setAy k ((v + widen ty imm).truncate 24))))

/-- ADI -/
def execAdi (x : Iss) (k : Fin 4) (src : ApgSrc) (ty : ImmTy) (imm : Word) (s : State) :
    Host.Outcome State Fault Refusal :=
  .next (s.issue x (apgForm (apgRegs src) []) (fun s =>
    let v : Word64 := match src with
      | .reg r => s.reg x r
      | .own j => (s.eng x.eng.val).adr j
    s.modEng x.eng.val (fun y => y.setAd k (v + widen ty imm))))

/-- ASTEP; modes 5–7 are reserved (R114). -/
def execAstep (x : Iss) (k : Fin 4) (pd : Fin 8) (mode : BitVec 3) (s : State) : Host.Outcome State Fault Refusal :=
  .next (s.issue x (apgForm [] [] (decide (mode.toNat ≤ 4))) (fun s =>
    let e := x.eng.val
    let l := s.lim e k
    if l.bad then s.illegal e (s.eng e).lastPc
    else s.setPair e k pd (l.step mode.toNat ((s.eng e).axr k).toNat ((s.eng e).ayr k).toNat)))

/-- AGAL (R115). -/
def execAgal (x : Iss) (k base : Fin 4) (pd : Fin 8) (s : State) : Host.Outcome State Fault Refusal :=
  .next (s.issue x (apgForm [] []) (fun s =>
    let e := x.eng.val
    let y := s.eng e
    let l := s.lim e k
    if l.bad then s.illegal e y.lastPc
    else s.setPair e k pd
      (l.gal (y.axr k).toNat (y.ayr k).toNat (y.axr base).toNat (y.ayr base).toNat)))

/-- R115: the pattern mask of an address. -/
def adMask (code : Nat) (x y : BitVec 24) : Bool :=
  if code = 1 then bit x 0 != bit y 0 else if code = 2 then bit y 0 else if code = 3 then bit x 0
  else if code = 4 then bit x 1 != bit y 1 else false

/-- ADGEN; codes 5–7 are reserved (R115). -/
def execAdgen (x : Iss) (k pair : Fin 4) (code : BitVec 3) (bg : Fin 4) (s : State) : Host.Outcome State Fault Refusal :=
  .next (s.issue x (apgForm [] [] (decide (code.toNat ≤ 4))) (fun s =>
    let e := x.eng.val
    let y := s.eng e
    let v := s.rd64 (peA e (0x1160 + 8 * bg.val))
    s.setEng e (y.setAd k (if adMask code.toNat (y.axr pair) (y.ayr pair) then ~~~v else v))))

/-- AINV -/
def execAinv (x : Iss) (k ka : Fin 4) (s : State) : Host.Outcome State Fault Refusal :=
  .next (s.issue x (apgForm [] []) (fun s => s.modEng x.eng.val (fun y => y.setAd k (~~~(y.adr ka)))))

/-- ARD; modes 3–7 are reserved. -/
def execArd (x : Iss) (rd : Gr) (k : Fin 4) (mode : BitVec 3) (s : State) : Host.Outcome State Fault Refusal :=
  .next (s.issue x (apgForm [] [rd] (decide (mode.toNat ≤ 2))) (fun s =>
    let y := s.eng x.eng.val
    s.setReg x rd (if mode = 0 then (y.axr k).zeroExtend 64 else if mode = 1 then (y.ayr k).zeroExtend 64 else y.adr k)))

end Sys2Proof.Machine
end

