-- ==== Sys2Proof/Machine/Levels.lean ====
section
/-! DEFINITION. Level DACs, ranges, lane enables, readback supervision and the per-pin PMU (R278–R288, R299). -/

namespace Sys2Proof.Machine

/-- Code register of DAC d of lane l; LVL_LANE[l]; PPMU[l]. -/
def lvlA (n l d : Nat) : Nat := pbA n (0x400 + 64 * l + 4 * d)
def laneA (n l : Nat) : Nat := pbA n (0x800 + 4 * l)
def ppmuA (n l : Nat) : Nat := pbA n (0x840 + 4 * l)

/-- The stand-in, or the returning slice, follows a change of lane l: its 6,400 ticks begin again (R172). -/
def State.siRestart (s : State) (n l : Nat) : State :=
  let st := s.rdf (pbA n 0x084) 0 3
  if (st = 1 ∨ st = 4) ∧ s.rdf (pbA n 0x084) 8 4 = l then s.modPe n (fun p => { p with siDue := s.now + 6400 }) else s

/-- R288: settling time of a PPMU range. -/
def ppmuSettle (range : Nat) : Nat :=
  if range = 0 then 320000 else if range = 1 then 80000 else if range = 2 then 32000 else 16000

/-- The PPMU of a lane settles from now on. -/
def State.ppmuSettles (s : State) (n l : Nat) : State :=
  s.setSettle (16 * n + l) (s.now + ppmuSettle (s.rdf (ppmuA n l) 8 3))

/-- A level code is written (R279, R285, R288). -/
def State.lvlWrite (s : State) (n l d : Nat) (v : BitVec 16) : State :=
  let changed : Bool := s.rd (lvlA n l d) ≠ v.zeroExtend 32
  let s := (s.wr (lvlA n l d) (v.zeroExtend 32)).modLane (16 * n + l) (fun x =>
    { x with written := tset (fun _ => 0) x.written d (s.now + 1) })
  let s := s.iff (changed && d == 8) (fun s => s.ppmuSettles n l)
  s.iff changed (fun s => s.siRestart n l)

/-- A lane is told which range to hold (R281, R282); `refuse` is what a refused selection does. -/
def State.rangeSel (s : State) (n l : Nat) (b : Bool) (refuse : State → State) : State :=
  if s.tst (laneA n l) 16 = b then s
  else if s.tst (laneA n l) 17 then refuse s
  else (((s.put (laneA n l) 16 b).put (laneA n l) 17 true).modLane (16 * n + l) (fun x =>
    { x with step := 1, t0 := s.now })).siRestart n l

/-- A write of LVL_LANE[l] (R281–R283): refused as a whole where its range is (R282). -/
def State.laneWrite (s : State) (p : Path) (n l : Nat) (v : Word) : State :=
  if s.tst (laneA n l) 17 ∧ s.tst (laneA n l) 16 ≠ bit v 16 then s.cfgErr p
  else (s.rangeSel n l (bit v 16) id).put (laneA n l) 0 (bit v 0)

/-- The PPMU of a lane takes a mode and a range (R286, R288, R171). -/
def State.ppmuSet (s : State) (n l mode range : Nat) : State :=
  let a := ppmuA n l
  let changed : Bool := s.rdf a 4 3 ≠ mode || s.rdf a 8 3 ≠ range
  let s := (s.wrf a 4 3 mode).wrf a 8 3 range
  let s := s.iff changed (fun s => s.ppmuSettles n l)
  if mode = 0 then s.put a 17 false else s.modLane (16 * n + l) (fun x => { x with quiet := 0 })

/-! Commands -/

/-- LVL_CODE_WRITE -/
def execLvlCodeWrite (p : Path) (n : Fin 64) (l : Fin 16) (d : Fin 9) (v : Word) (s : State) :
    Host.Outcome State Fault Refusal :=
  .next (s.host p (lvlA n.val l.val d.val) (fun s => s.lvlWrite n.val l.val d.val (v.truncate 16)))

/-- RANGE_WRITE -/
def execRangeWrite (p : Path) (n : Fin 64) (l : Fin 16) (v : Word) (s : State) : Host.Outcome State Fault Refusal :=
  .next (s.host p (laneA n.val l.val) (fun s => s.laneWrite p n.val l.val v))

/-- LVL_EN_WRITE -/
def execLvlEnWrite (p : Path) (n : Fin 64) (l : Fin 16) (v : Word) (s : State) : Host.Outcome State Fault Refusal :=
  .next (s.host p (laneA n.val l.val) (fun s => s.laneWrite p n.val l.val v))

/-- A step of a range change at its tick (R281). -/
def State.rangeStep (s : State) (n l step ticks : Nat) (last : Bool) : State :=
  let x := s.lane (16 * n + l)
  if x.step ≠ step then s
  else
    let s := (s.advanceTo (x.t0 + ticks)).modLane (16 * n + l) (fun x => { x with step := if last then 0 else step + 1 })
    s.iff last (fun s => s.put (laneA n l) 17 false)

/-- RANGE_SWITCH: t0 + 960. -/
def execRangeSwitch (n : Fin 64) (l : Fin 16) (s : State) : Host.Outcome State Fault Refusal :=
  .next (s.rangeStep n.val l.val 1 960 false)

/-- RANGE_CODES_APPLY: t0 + 1,920. -/
def execRangeCodesApply (n : Fin 64) (l : Fin 16) (s : State) : Host.Outcome State Fault Refusal :=
  .next (s.rangeStep n.val l.val 2 1920 false)

/-- RANGE_RECONNECT: t0 + 3,200. -/
def execRangeReconnect (n : Fin 64) (l : Fin 16) (s : State) : Host.Outcome State Fault Refusal :=
  .next (s.rangeStep n.val l.val 3 3200 true)

/-- LVLCLR_ASSERT (R284). -/
def execLvlclrAssert (s : State) : Host.Outcome State Fault Refusal :=
  .next (s.modSeas (fun x => { x with lvlclr := true }))

/-- LVLCLR_RELEASE (R284). -/
def execLvlclrRelease (s : State) : Host.Outcome State Fault Refusal :=
  .next (s.modSeas (fun x => { x with lvlclr := false }))

/-- How far a measured code lies from the code register, in LSBs. -/
def codeDiff (a b : Nat) : Nat := if a ≤ b then b - a else a - b

/-- A DAC is eligible for supervision, and the MADC is there for it (R285, R292). -/
def State.eligible (s : State) (n l d : Nat) : Bool :=
  let w := tget (fun _ => 0) (s.lane (16 * n + l)).written d
  let m := s.madc n
  s.tst (pbA n 0x880) 31 && s.tst (laneA n l) 0 && !s.tst (laneA n l) 17 && !s.seas.lvlclr && s.dom 21
    && (w = 0 || decide (w - 1 + 1600 ≤ s.now)) && m.conv.isNone && m.waiting.isEmpty

/-- SUPERVISION_CHECK: m1 is the first measured code, m2 the second, taken where the first lies too far (R285). -/
def opSupervisionCheck (n l d : Nat) (m1 m2 : BitVec 16) (s : State) : State :=
  let c := s.rdf (lvlA n l d) 0 16
  let tol := s.rdf (pbA n 0x880) 0 16
  if s.eligible n l d && decide (tol < codeDiff c m1.toNat) && decide (tol < codeDiff c m2.toNat) then
    let s := s.raise clsLevel 2 3 n (l + 16 * d)
    let s := (((s.put (pbA n 0x888) 31 true).wrf (pbA n 0x888) 4 4 l).wrf (pbA n 0x888) 0 4 d)
    (s.wr (pbA n 0x88C) (BitVec.ofNat 32 (c * 65536 + m2.toNat))).count (pbA n 0x890) (pbA n 0x888) 30
  else s

def execSupervisionCheck (n : Fin 64) (l : Fin 16) (d : Fin 9) (m1 m2 : BitVec 16) (s : State) :
    Host.Outcome State Fault Refusal :=
  .next (opSupervisionCheck n.val l.val d.val m1 m2 s)

/-- PPMU_WRITE: a write with a refused code is ignored as a whole (R299, R452). -/
def opPpmuWrite (p : Path) (n l : Nat) (v : Word) (s : State) : State :=
  if 4 < fld v 4 3 ∨ 4 < fld v 8 3 then s.cfgErr p else s.ppmuSet n l (fld v 4 3) (fld v 8 3)

def execPpmuWrite (p : Path) (n : Fin 64) (l : Fin 16) (v : Word) (s : State) : Host.Outcome State Fault Refusal :=
  .next (s.host p (ppmuA n.val l.val) (opPpmuWrite p n.val l.val v))

/-- The key of a source's settling time. -/
def srcKey : Source → Nat
  | .ppmu n l => 16 * n.val + l.val
  | .smu n => 1024 + n.val

/-- SETTLING_END (R288). -/
def opSettlingEnd (k : Nat) (s : State) : State :=
  if s.settleAt k = 0 then s else (s.advanceTo (s.settleAt k)).setSettle k 0

def execSettlingEnd (src : Source) (s : State) : Host.Outcome State Fault Refusal := .next (opSettlingEnd (srcKey src) s)

/-- CLAMP_CHANGE: a connected source enters or leaves a clamp (R287, R289). -/
def opClampChange (src : Source) (on : Bool) (s : State) : State :=
  match src with
  | .ppmu n l => s.put (ppmuA n.val l.val) 17 (on && s.rdf (ppmuA n.val l.val) 4 3 ≠ 0)
  | .smu n => s.put (pbA n.val 0xC0C) 1 (on && s.tst (pbA n.val 0xC0C) 0)

def execClampChange (src : Source) (on : Bool) (s : State) : Host.Outcome State Fault Refusal :=
  .next (opClampChange src on s)

end Sys2Proof.Machine
end

