-- ==== Sys2Proof/Machine/Smu.lean ====
section
/-! DEFINITION. The SMUs: commands, the power budget, ramps and sense faults (R289–R291). -/

namespace Sys2Proof.Machine

/-- Full scale of an SMU range in µA (R116). -/
def smuMicroamps (range : Nat) : Nat := 10 ^ range

/-- R290: the reservation of a setting, in mW rounded up. -/
def smuReserve (mode range clampI : Nat) (force : Int) : Nat :=
  if mode = 1 then (smuMicroamps range * clampI * 18 + 99999) / 100000
  else if mode = 2 then (smuMicroamps range * force.natAbs * 18 + (2 ^ 20 * 1000 - 1)) / (2 ^ 20 * 1000)
  else 0

/-- SMU_STAT. -/
def smuS (n : Nat) : Nat := pbA n 0xC0C

/-- The reservations of every SMU but n. -/
def State.othersReserve (s : State) (n : Nat) : Nat :=
  (List.range 64).foldl (fun a k => if k = n then a else a + s.rdf (smuS k) 16 16) 0

/-- R289: a force code within the limits of its mode. -/
def forceOk (mode : Nat) (f : Int) : Bool :=
  if mode = 1 then decide (f.natAbs ≤ 8000000) else if mode = 2 then decide (f.natAbs ≤ 1048576) else true

/-- A class SMU fault of bank n (R289–R291). -/
def State.smuFault (s : State) (n lvl : Nat) : State := s.raise clsSmu lvl 3 n 0

/-- R288: settling time of an SMU range. -/
def smuSettle (range : Nat) : Nat := if range ≤ 1 then 320000 else if range = 2 then 80000 else 32000

/-- The SMU reads off and holds no reservation (R291). -/
def State.smuOff (s : State) (n : Nat) : State :=
  let s := (s.wrf (pbA n 0xC00) 16 2 0).setSmu n { s.smu n with mode := 0, rampEnd := 0 }
  (((s.put (smuS n) 0 false).put (smuS n) 1 false).put (smuS n) 4 false).wrf (smuS n) 16 16 0

/-- R290: a setting that would raise the sum of the reservations above 16,000 mW. -/
def State.overBudget (s : State) (n r : Nat) : Bool :=
  decide (16000 < s.othersReserve n + r) && decide (s.rdf (smuS n) 16 16 < r)

/-- The reservation of a command. -/
def State.wantReserve (s : State) (n mode range : Nat) (force : Int) : Nat :=
  smuReserve mode range (s.rdf (pbA n 0xC08) 0 7) force

/-- A command is accepted (R289, R290). -/
def State.smuTakes (s : State) (n mode range : Nat) (force : Int) : Bool :=
  !s.tst (smuS n) 4 && forceOk mode force && !s.overBudget n (s.wantReserve n mode range force)

/-- A command sets mode, range and force code (R289–R291). -/
def State.smuCommand (s : State) (n mode range : Nat) (force : Int) : State :=
  if s.tst (smuS n) 4 ∨ !forceOk mode force then s.smuFault n 0
  else
    let r := s.wantReserve n mode range force
    if s.overBudget n r then (s.put (smuS n) 3 true).smuFault n 0
    else
      let s := ((s.wrf (pbA n 0xC00) 16 2 mode).wrf (pbA n 0xC00) 8 3 range).setSettle (1024 + n)
        (s.now + smuSettle range)
      if mode = 0 then s.smuOff n
      else
        ((s.setSmu n ⟨force, BitVec.ofNat 2 mode, BitVec.ofNat 3 range, 0⟩).put (smuS n) 0 true).wrf (smuS n) 16 16 r

/-- SMU_CFG_WRITE: LOCAL, and the command with SMU_FORCE; a refused write changes no field (R289, R299, R452). -/
def opSmuCfgWrite (p : Path) (n : Nat) (v : Word) (s : State) : State :=
  let f := (s.rd (pbA n 0xC04)).toInt
  if fld v 16 2 = 3 ∨ 5 < fld v 8 3 then s.cfgErr p
  else (s.iff (s.smuTakes n (fld v 16 2) (fld v 8 3) f) (fun s => s.put (pbA n 0xC00) 0 (bit v 0))).smuCommand n
    (fld v 16 2) (fld v 8 3) f

def execSmuCfgWrite (p : Path) (n : Fin 64) (v : Word) (s : State) : Host.Outcome State Fault Refusal :=
  .next (s.host p (pbA n.val 0xC00) (opSmuCfgWrite p n.val v))

/-- SMU_CLAMP_WRITE (R290, R299). -/
def opSmuClampWrite (p : Path) (n : Nat) (v : Word) (s : State) : State :=
  let i := fld v 0 7
  if 8000 < fld v 16 16 ∨ i = 0 ∨ 100 < i then s.cfgErr p
  else
    let x := s.smu n
    let r := if s.tst (smuS n) 0 then smuReserve x.mode.toNat x.range.toNat i x.force else 0
    if s.overBudget n r then (s.put (smuS n) 3 true).smuFault n 0
    else (s.wr (pbA n 0xC08) (v &&& 0xFFFF007F)).iff (s.tst (smuS n) 0) (fun s => s.wrf (smuS n) 16 16 r)

def execSmuClampWrite (p : Path) (n : Fin 64) (v : Word) (s : State) : Host.Outcome State Fault Refusal :=
  .next (s.host p (pbA n.val 0xC08) (opSmuClampWrite p n.val v))

/-- R291: ticks of a ramp to 0, from the force voltage in µV at 0.5 V/µs or the force current at full scale per 10 µs. -/
def rampTicks (mode : Nat) (f : Int) : Nat :=
  if mode = 1 then (f.natAbs * 1600 + 499999) / 500000 else (f.natAbs * 16000 + (2 ^ 20 - 1)) / 2 ^ 20

/-- An SMU that is on, and not ramping, ramps to 0 (R291). -/
def State.smuRamp (s : State) (n : Nat) : State :=
  if s.tst (smuS n) 0 ∧ !s.tst (smuS n) 4 then
    let x := s.smu n
    (s.setSmu n { x with rampEnd := s.now + rampTicks x.mode.toNat x.force }).put (smuS n) 4 true
  else s

/-- SMU_RAMP_DONE: the output opens. -/
def opSmuRampDone (n : Nat) (s : State) : State :=
  if s.tst (smuS n) 4 then (s.advanceTo (s.smu n).rampEnd).smuOff n else s

def execSmuRampDone (n : Fin 64) (s : State) : Host.Outcome State Fault Refusal := .next (opSmuRampDone n.val s)

/-- SENSE_FAULT: with LOCAL at 0 (R291). -/
def opSenseFault (n : Nat) (s : State) : State :=
  if s.tst (pbA n 0xC00) 0 ∨ !s.tst (smuS n) 0 then s
  else ((s.put (smuS n) 2 true).smuFault n 2).smuRamp n

def execSenseFault (n : Fin 64) (s : State) : Host.Outcome State Fault Refusal := .next (opSenseFault n.val s)

end Sys2Proof.Machine
end

