-- ==== Sys2Proof/Machine/Madc.lean ====
section
/-! DEFINITION. The measurement ADC (R292–R298). -/

namespace Sys2Proof.Machine

/-- Entry e of the sequence. -/
def State.mseq (s : State) (n e : Nat) : Word64 := s.rd64 (pbA n (0x1100 + 8 * e))
def mEn (v : Word64) : Bool := bit v 63
def mStart (v : Word64) : Nat := fld v 61 2
def mDelay (v : Word64) : Nat := fld v 45 16
def mRef (v : Word64) : Nat := fld v 43 2
def mAvg (v : Word64) : Nat := fld v 36 4
def mShift (v : Word64) : Nat := fld v 32 4
def mSrc (v : Word64) : Nat := fld v 24 8
def mLane (v : Word64) : Nat := fld v 20 4
def mDac (v : Word64) : Nat := fld v 16 4
def mOw (v : Word64) : Nat := fld v 0 2

/-- R293: an entry that breaks no field rule. -/
def mseqOk (v : Word64) : Bool :=
  decide (mStart v ≠ 3) && decide (mRef v ≠ 3) && fld v 40 3 = 0 && decide (mAvg v ≤ 8) && decide (mShift v ≤ 8)
    && decide (mSrc v ≤ 5) && decide (mDac v ≤ 8) && fld v 2 14 = 0 && decide (mOw v ≠ 3)
    && (mOw v = 0 || mSrc v = 2 || mSrc v = 5)

/-- The ERR result of R296. -/
def madcErr (entry : Nat) : Word64 := BitVec.ofNat 64 (2 ^ 63 + entry * 2 ^ 53)

/-- The engine and tag that a request's result goes to, where there is one. -/
def MReq.tag : MReq → Option Nat
  | .entry _ t => t
  | .ppmu _ _ t => some t
  | .smu _ t => some t

/-- The sequence entry of a request. -/
def MReq.entry? : MReq → Option Nat
  | .entry e _ => some e.val
  | _ => none

/-- A request waits for the MADC; a class-3 calibration conversion is abandoned (R292, R368). -/
def State.madcWait (s : State) (n : Nat) (w : MWait) : State :=
  let m := s.madc n
  (s.setMadc n { m with waiting := m.waiting ++ [w] }).calDrop (1216 + n)

/-- A start event of entry e: it is due after its DELAY (R295). Class 1 is the timer and pulse widths, class 2 an
instruction or a kick. -/
def State.madcStart (s : State) (n : Nat) (e : Fin 32) (cls : Nat) (tag : Option Nat) : State :=
  let v := s.mseq n e.val
  if mEn v then
    let m := s.madc n
    s.setMadc n { m with delayed := m.delayed ++ [⟨.entry e tag, cls, s.now + mDelay v⟩] }
  else s

/-- Every entry with a START code is started (R295). -/
def State.madcStartAll (s : State) (n code : Nat) : State :=
  s.each (List.finRange 32) (fun s e => if mStart (s.mseq n e.val) = code then s.madcStart n e 1 none else s)

/-- A result goes to its tag (R296). -/
def State.madcTag (s : State) (n : Nat) (r : MReq) (v : Word64) : State :=
  match r.tag with
  | some t => s.modEng n (fun x => x.done t v)
  | none => s

/-! Commands -/

/-- MADC_CTRL.RUN starts or stops the bank timer (R295). -/
def opRun (n : Nat) (on : Bool) (s : State) : State :=
  let was := s.tst (pbA n 0x1000) 0
  (s.put (pbA n 0x1000) 0 on).iff (on && !was) (fun s => s.setMadc n { s.madc n with timerAt := s.now })

/-- RUN -/
def execRun (p : Path) (n : Fin 64) (on : Bool) (s : State) : Host.Outcome State Fault Refusal :=
  .next (s.host p (pbA n.val 0x1000) (opRun n.val on))

/-- KICK with ENTRY (R295). -/
def opKick (n : Nat) (e : Fin 32) (s : State) : State := (s.wrf (pbA n 0x1000) 8 5 e.val).madcStart n e 2 none

def execKick (p : Path) (n : Fin 64) (entry : Fin 32) (s : State) : Host.Outcome State Fault Refusal :=
  .next (s.host p (pbA n.val 0x1000) (opKick n.val entry))

/-- MADC_TIMER_EVENT: PERIOD ticks after the last event (R295). -/
def opMadcTimerEvent (n : Nat) (s : State) : State :=
  let per := (s.rd (pbA n 0x1008)).toNat
  if s.tst (pbA n 0x1000) 0 ∧ per ≠ 0 ∧ s.dom 21 then
    let s := s.advanceTo ((s.madc n).timerAt + per)
    (s.setMadc n { s.madc n with timerAt := (s.madc n).timerAt + per }).madcStartAll n 1
  else s

def execMadcTimerEvent (n : Fin 64) (s : State) : Host.Outcome State Fault Refusal := .next (opMadcTimerEvent n.val s)

/-- An entry already waits or converts (R292). -/
def Madc.has (m : Madc) (e : Nat) : Bool :=
  m.waiting.any (fun w => w.req.entry? = some e) || m.conv.any (fun c => c.req.entry? = some e)

/-- MADC_ENTRY_DUE: the first start of the entry whose DELAY runs becomes due; it waits, or is dropped (R292, R295). -/
def opMadcEntryDue (n : Nat) (e : Nat) (s : State) : State :=
  match (s.madc n).delayed.find? (fun w => w.req.entry? = some e) with
  | none => s
  | some w =>
    let s := s.advanceTo w.due
    let m := s.madc n
    let s := s.setMadc n { m with delayed := m.delayed.erase w }
    if m.has e then (s.count (pbA n 0x101C) (pbA n 0x1004) 31).madcTag n w.req (madcErr e) else s.madcWait n w

def execMadcEntryDue (n : Fin 64) (entry : Fin 32) (s : State) : Host.Outcome State Fault Refusal :=
  .next (opMadcEntryDue n.val entry.val s)

/-- R292: class 1 comes before class 2; class 1 in order of due tick, then entry number; class 2 in order of arrival. -/
def mBefore (a b : MWait) : Bool :=
  decide (a.cls < b.cls) || (a.cls == b.cls && a.cls == 1 &&
    (decide (a.due < b.due) || (a.due == b.due && decide (a.req.entry?.getD 0 < b.req.entry?.getD 0))))

/-- The request served next. -/
def mPick : List MWait → Option MWait
  | [] => none
  | a :: t =>
    match mPick t with
    | none => some a
    | some b => if mBefore b a then some b else some a

/-- AVG, SHIFT and REF of a request (R293, R294). -/
def State.mScale (s : State) (n : Nat) (r : MReq) : Nat × Nat × Nat :=
  match r with
  | .entry e _ => let v := s.mseq n e.val; (mAvg v, mShift v, mRef v)
  | _ => let v := s.rd (pbA n 0x1010); (fld v 4 4, fld v 0 4, fld v 11 2)

/-- A request's source is settling now (R288, R296). -/
def State.mSettling (s : State) (n : Nat) (r : MReq) : Bool :=
  let k : Option Nat := match r with
    | .ppmu l _ _ => some (16 * n + l.val)
    | .smu _ _ => some (1024 + n)
    | .entry e _ =>
      let v := s.mseq n e.val
      if mSrc v ≤ 1 then some (16 * n + mLane v) else if mSrc v ≤ 3 then some (1024 + n) else none
  match k with
  | some k => decide (s.now < s.settleAt k)
  | none => false

/-- MADC_CONVERSION_START: the free MADC starts a waiting request; `settles` says whether the reference has settled
(R292, R296). -/
def opMadcConversionStart (n : Nat) (settles : Bool) (s : State) : State :=
  let m := s.madc n
  match m.conv, mPick m.waiting with
  | none, some w =>
    if !s.dom 21 then s
    else
      let (avg, shift, ref) := s.mScale n w.req
      let c : MConv := ⟨w.req, s.now + 1600 * 2 ^ avg, avg, shift, BitVec.ofNat 2 ref, s.mSettling n w.req, !settles⟩
      let s := s.setMadc n { m with conv := some c, waiting := m.waiting.erase w, lastRef := BitVec.ofNat 2 ref }
      let s := s.put (pbA n 0x1004) 2 settles
      let s := s.iff (!settles) (fun s => s.raise clsCal 0 3 n 0)
      s.iff (w.req.entry?.isSome && decide (w.due < s.now)) (fun s => s.count (pbA n 0x1020) (pbA n 0x1004) 30)
  | _, _ => s

def execMadcConversionStart (n : Fin 64) (settles : Bool) (s : State) : Host.Outcome State Fault Refusal :=
  .next (opMadcConversionStart n.val settles s)

/-- Open-wire check (R297). With the internal reference the reading and the expected voltage are compared, in nV; with
another reference, or an SMU that forces current, `openWire` says what the check gives. -/
def State.mOpen (s : State) (n : Nat) (v : Word64) (c : MConv) (value : Int) (openWire : Bool) : Bool :=
  if mOw v = 0 then false
  else
    let x := s.smu n
    if c.ref ≠ 0 ∨ (mSrc v = 2 ∧ x.mode = 2) then openWire
    else
      let want : Int := if mSrc v = 2 ∧ x.mode = 1 then x.force * 1000 else 0
      let got : Int := value * 2 ^ c.shift * 78125 / 2 ^ c.avg
      decide ((s.rdf (pbA n 0x1018) 0 16 * 1000000 : Int) < ((got - want).natAbs : Int))

/-- MADC_RESULT: `samples` are the conversion's samples (R292, R296, R298). -/
def opMadcResult (n : Nat) (samples : List (BitVec 18)) (clamped openWire : Bool) (s : State) : State :=
  match (s.madc n).conv with
  | none => s
  | some c =>
    let s := s.advanceTo c.finish
    let m := s.madc n
    let e := c.req.entry?.getD 0
    let sum : Int := (samples.map BitVec.toInt).foldl (· + ·) 0
    let value : Int := sum / 2 ^ c.shift
    let rng := samples.any (fun x => x.toInt = -131072 || x.toInt = 131071)
    let op := match c.req with
      | .entry k _ => s.mOpen n (s.mseq n k.val) c value openWire
      | _ => false
    let w : Word64 := BitVec.ofNat 64 (rng.toNat * 2 ^ 62 + c.settling.toNat * 2 ^ 61 + c.refNs.toNat * 2 ^ 60
      + clamped.toNat * 2 ^ 59 + op.toNat * 2 ^ 58 + e * 2 ^ 53 + (BitVec.ofInt 32 value).toNat)
    let s := match c.req with
      | .entry k _ =>
        let q := tget (fun _ => 0) m.seqno k.val + 1
        let s := s.setMadc n { m with conv := none, seqno := tset (fun _ => 0) m.seqno k.val q }
        if s.tst (pbA n 0x1000) 1 then
          let (x, clip) := clampTo (-(2 ^ 23)) (2 ^ 23 - 1) value
          let ovr := s.tst (pbA n 0x1014) 31
          s.wr (pbA n 0x1014) (BitVec.ofNat 32 (2 ^ 31 + ovr.toNat * 2 ^ 30 + k.val * 2 ^ 25 + clip.toNat * 2 ^ 24
            + (BitVec.ofInt 24 x).toNat))
        else
          (s.wr (pbA n (0x1200 + 8 * k.val)) (BitVec.ofInt 32 value)).wr (pbA n (0x1204 + 8 * k.val))
            (BitVec.ofNat 32 (2 ^ 31 + rng.toNat * 2 ^ 30 + c.settling.toNat * 2 ^ 29 + c.refNs.toNat * 2 ^ 28
              + clamped.toNat * 2 ^ 27 + op.toNat * 2 ^ 26 + q.toNat))
      | _ => s.setMadc n { m with conv := none }
    s.madcTag n c.req w

def execMadcResult (n : Fin 64) (samples : List (BitVec 18)) (clamped openWire : Bool) (s : State) :
    Host.Outcome State Fault Refusal :=
  .next (opMadcResult n.val samples clamped openWire s)

/-- MSEQ_COMMIT: a write of the _HI half with the low half its path holds (R12, R293). -/
def opMseqCommit (p : Path) (n e : Nat) (hi : Word) (s : State) : State :=
  let a := pbA n (0x1100 + 8 * e)
  let v := s.pairOf p a hi
  let m := s.madc n
  let s := s.holdLo p a none
  if !mseqOk v ∨ s.tst (pbA n 0x1000) 0 ∨ m.conv.any (fun c => c.req.entry?.isSome)
      ∨ m.waiting.any (fun w => w.req.entry?.isSome) then
    (s.put (pbA n 0x1004) 3 true).cfgErr p
  else s.wr64 a v

def execMseqCommit (p : Path) (n : Fin 64) (entry : Fin 32) (hi : Word) (s : State) : Host.Outcome State Fault Refusal :=
  .next (s.host p (pbA n.val (0x1104 + 8 * entry.val)) (opMseqCommit p n.val entry.val hi))

/-- A read answered, or a value returned to its path. -/
def State.answer (s : State) (p : Path) (v : Word) : State := s.emit (.readData p v)

/-- A host read: its register answers where it is reached; else R404 does. In reset nothing answers (R359). -/
def State.hostRead (s : State) (p : Path) (a : Nat) (f : State → Word × State) : State :=
  if s.seas.resetLow then s
  else
    match s.reach p a false with
    | (none, s) => let (v, s) := f s; s.answer p v
    | (some v, s) => s.answer p v

/-- MADC_DATA: the read clears VALID and OVR (R298). -/
def madcDataVal (n : Nat) (s : State) : Word × State :=
  let v := s.rd (pbA n 0x1014)
  (v, s.wr (pbA n 0x1014) (v &&& 0x3FFFFFFF))

def execMadcDataRead (p : Path) (n : Fin 64) (s : State) : Host.Outcome State Fault Refusal :=
  .next (s.hostRead p (pbA n.val 0x1014) (madcDataVal n.val))

/-- MADC_RES _LO: the read latches _HI and clears NEW (R298). -/
def madcResVal (p : Path) (n e : Nat) (s : State) : Word × State :=
  let a := pbA n (0x1200 + 8 * e)
  (s.rd a, (s.setLatch p (s.rd (a + 4))).put (a + 4) 31 false)

def execMadcResRead (p : Path) (n : Fin 64) (entry : Fin 32) (s : State) : Host.Outcome State Fault Refusal :=
  .next (s.hostRead p (pbA n.val (0x1200 + 8 * entry.val)) (madcResVal p n.val entry.val))

/-- The MADC domain switches off: the timer stops, and every request completes with ERR (R295). -/
def State.madcOff (s : State) (n : Nat) : State :=
  let m := s.madc n
  let rs := (m.conv.toList.map (fun c => c.req)) ++ (m.waiting ++ m.delayed).map (fun w => w.req)
  let s := (s.setMadc n { m with conv := none, waiting := [], delayed := [] }).put (pbA n 0x1000) 0 false
  s.each rs (fun s r => s.madcTag n r (madcErr (r.entry?.getD 0)))

end Sys2Proof.Machine
end

