-- ==== Sys2Proof/Machine/Tdc.lean ====
section
/-! DEFINITION. The commands of the time-interval units (R301–R308). -/

namespace Sys2Proof.Machine

/-- TDC_ARM: a write of CTRL.ARM (R307, R308). -/
def execTdcArm (p : Path) (n : Fin 64) (t : Fin 2) (s : State) : Host.Outcome State Fault Refusal :=
  .next (s.host p (tdcA n.val t.val 0) (fun s => s.tdcArmOr n.val t.val (fun s => s.cfgErr p)))

/-- DISARM: a cancel (R305, R308). -/
def execDisarm (p : Path) (n : Fin 64) (t : Fin 2) (s : State) : Host.Outcome State Fault Refusal :=
  .next (s.host p (tdcA n.val t.val 0) (fun s => s.tdcCancel n.val t.val))

/-- TDC_START: a start event `sub` LSB into this tick, or the tick of the start match (R302, R303). -/
def opTdcStart (k sub : Nat) (s : State) : State :=
  let x := s.tdc k
  if x.st ≠ .armed then s
  else if x.skind = 2 then
    let s := s.toMoment (atDiff x.smatch s.wtc)
    let x := s.tdc k
    if x.st = .armed ∧ s.wtc = x.smatch then s.setTdc k (x.begin (s.now * 1024) s.wtc s.uncal) else s
  else if s.now ≤ x.armAt then s
  else s.setTdc k (x.begin (s.now * 1024 + sub) s.wtc s.uncal)

def execTdcStart (n : Fin 64) (t : Fin 2) (sub : BitVec 10) (s : State) : Host.Outcome State Fault Refusal :=
  .next (opTdcStart (2 * n.val + t.val) sub.toNat s)

/-- A stop-source edge `sub` LSB into this tick (R302, R304). -/
def State.tdcEdge (s : State) (k sub : Nat) : State := s.setTdc k ((s.tdc k).edge (s.now * 1024 + sub) s.uncal)

/-- TDC_EDGE_COUNT: in frequency mode (R304). -/
def execTdcEdgeCount (n : Fin 64) (t : Fin 2) (sub : BitVec 10) (s : State) : Host.Outcome State Fault Refusal :=
  let k := 2 * n.val + t.val
  .next (if (s.tdc k).freq then s.tdcEdge k sub.toNat else s)

/-- TDC_STOP: in interval mode, an edge, or the tick of the stop match (R302, R303). -/
def opTdcStop (k sub : Nat) (s : State) : State :=
  let x := s.tdc k
  if x.freq ∨ x.st ≠ .started ∨ x.ended.isSome then s
  else if x.pkind = 2 then
    let s := s.toMoment (atDiff x.pmatch s.wtc)
    if s.wtc = x.pmatch then s.tdcEdge k 0 else s
  else s.tdcEdge k sub

def execTdcStop (n : Fin 64) (t : Fin 2) (sub : BitVec 10) (s : State) : Host.Outcome State Fault Refusal :=
  .next (opTdcStop (2 * n.val + t.val) sub.toNat s)

/-- TDC_TIMEOUT: TMO ticks after arming (R305). -/
def opTdcTimeout (k : Nat) (s : State) : State :=
  let x := s.tdc k
  if (x.st ≠ .armed ∧ x.st ≠ .started) ∨ x.ended.isSome then s
  else
    let s := s.advanceTo (x.armAt + x.tmo)
    s.setTdc k ((s.tdc k).timeout s.now s.uncal)

def execTdcTimeout (n : Fin 64) (t : Fin 2) (s : State) : Host.Outcome State Fault Refusal :=
  .next (opTdcTimeout (2 * n.val + t.val) s)

/-- R306: a result that makes a pulse-width event. -/
def State.pulseWide (s : State) (n t : Nat) (w : Word64) : Bool :=
  s.rdf (pbA n 0x100C) 31 1 = t && fld w 57 1 = 0 && fld w 61 2 = 0
    && decide (s.rdf (pbA n 0x100C) 0 31 < fld w 0 50) && s.dom 21

/-- TDC_RESULT_WRITE: 16 ticks after the end event (R305–R307). -/
def opTdcResultWrite (n t : Nat) (s : State) : State :=
  let k := 2 * n + t
  match (s.tdc k).ended with
  | none => s
  | some (tick, _) =>
    let s := s.advanceTo (tick + 16)
    let x := s.tdc k
    match x.ended with
    | none => s
    | some (_, w) =>
      let s := match x.waiter with
        | some tag => (s.setTdc k { x with st := .idle, ended := none, waiter := none }).modEng n (fun e => e.done tag w)
        | none => s.setTdc k { x with st := .done, ended := none, word := w }
      s.iff (s.pulseWide n t w) (fun s => s.madcStartAll n 2)

def execTdcResultWrite (n : Fin 64) (t : Fin 2) (s : State) : Host.Outcome State Fault Refusal :=
  .next (opTdcResultWrite n.val t.val s)

/-- TDC_RES_READ: a host read of RES_LO (R307). -/
def tdcResVal (p : Path) (k : Nat) (s : State) : Word × State :=
  let x := s.tdc k
  if x.st = .done then (loHalf x.word, (s.setLatch p (hiHalf x.word)).setTdc k { x with st := .idle })
  else (loHalf tdcNotArmed, s.setLatch p (hiHalf tdcNotArmed))

def execTdcResRead (p : Path) (n : Fin 64) (t : Fin 2) (s : State) : Host.Outcome State Fault Refusal :=
  .next (s.hostRead p (tdcA n.val t.val 0x28) (tdcResVal p (2 * n.val + t.val)))

end Sys2Proof.Machine
end

