-- ==== Sys2Proof/Machine/Meas.lean ====
section
/-! DEFINITION. The MEAS and LVL groups (R116–R120). -/

namespace Sys2Proof.Machine

/-- A MEAS instruction. -/
def measForm (srcs dst : List Gr) (tag : Bool) (ok : Bool := true) : Form :=
  { grp := 7, srcs := srcs, dst := dst, tag := tag, ok := ok }

/-- PPMU; modes and ranges 5–7 are reserved (R116). -/
def execPpmu (x : Iss) (l : Fin 16) (mode range : BitVec 3) (s : State) : Host.Outcome State Fault Refusal :=
  .next (s.issue x (measForm [] [] false (decide (mode.toNat ≤ 4) && decide (range.toNat ≤ 4))) (fun s =>
    s.ppmuSet x.eng.val l.val mode.toNat range.toNat))

/-- A measurement that takes a tag: at once with ERR while the MADC domain is off (R295), else it waits (R292). -/
def State.measure (s : State) (x : Iss) (rd : Gr) (f : Nat → MReq) : State :=
  let e := x.eng.val
  if s.dom 21 then
    let k := (s.eng e).freeTag.getD 0
    (s.takeTag x rd none .madc).madcWait e ⟨f k, 2, s.now⟩
  else s.takeTag x rd (some (madcErr 0)) (.exact (s.now + 6))

/-- MPPMU -/
def execMppmu (x : Iss) (rd : Gr) (l : Fin 16) (cur : Bool) (s : State) : Host.Outcome State Fault Refusal :=
  .next (s.issue x (measForm [] [rd] true) (fun s => s.measure x rd (fun k => .ppmu l cur k)))

/-- SMUC: a command of the bank's SMU (R116, R289); while the SMU domain is off it raises CFG as well. -/
def opSmuc (e : Nat) (code : Word64) (mode range : Nat) (s : State) : State :=
  if s.dom 20 then s.smuCommand e mode range (loHalf code).toInt
  else (s.smuFault e 0).engFault e clsCfg 0

def execSmuc (x : Iss) (ra : Gr) (mode : BitVec 2) (range : BitVec 3) (s : State) : Host.Outcome State Fault Refusal :=
  .next (s.issue x (measForm [ra] [] false (decide (mode.toNat ≤ 2) && decide (range.toNat ≤ 5))) (fun s =>
    opSmuc x.eng.val (s.reg x ra) mode.toNat range.toNat s))

/-- MSMU -/
def execMsmu (x : Iss) (rd : Gr) (cur : Bool) (s : State) : Host.Outcome State Fault Refusal :=
  .next (s.issue x (measForm [] [rd] true) (fun s => s.measure x rd (fun k => .smu cur k)))

/-- MADC: the start of a sequence entry, or ERR after 6 ticks (R295). -/
def opMadc (x : Iss) (rd : Gr) (entry : Fin 32) (s : State) : State :=
  let e := x.eng.val
  if s.dom 21 && mEn (s.mseq e entry.val) then
    let k := (s.eng e).freeTag.getD 0
    (s.takeTag x rd none .madc).madcStart e entry 2 (some k)
  else s.takeTag x rd (some (madcErr entry.val)) (.exact (s.now + 6))

def execMadc (x : Iss) (rd : Gr) (entry : Fin 32) (s : State) : Host.Outcome State Fault Refusal :=
  .next (s.issue x (measForm [] [rd] true) (opMadc x rd entry))

/-- TDCA (R118, R307). -/
def execTdca (x : Iss) (t : Fin 2) (s : State) : Host.Outcome State Fault Refusal :=
  .next (s.issue x (measForm [] [] false) (fun s =>
    s.tdcArmOr x.eng.val t.val (fun s => s.engFault x.eng.val clsCfg 0)))

/-- TDCR (R118, R307). -/
def opTdcr (x : Iss) (rd : Gr) (t : Fin 2) (s : State) : State :=
  let e := x.eng.val
  let k := 2 * e + t.val
  let y := s.tdc k
  let six (s : State) (w : Word64) : State := s.takeTag x rd (some w) (.exact (s.now + 6))
  match y.st, y.waiter with
  | .idle, _ => six s tdcNotArmed
  | .done, _ => six (s.setTdc k { y with st := .idle }) y.word
  | _, none => (s.setTdc k { y with waiter := some ((s.eng e).freeTag.getD 0) }).takeTag x rd none (.tdc t)
  | _, some _ => six (s.engFault e clsCfg 0) tdcSecond

def execTdcr (x : Iss) (rd : Gr) (t : Fin 2) (s : State) : Host.Outcome State Fault Refusal :=
  .next (s.issue x (measForm [] [rd] true) (opTdcr x rd t))

/-! LVL -/

/-- An LVL instruction. -/
def lvlForm (srcs dst : List Gr) (ok : Bool := true) : Form := { grp := 8, srcs := srcs, dst := dst, ok := ok }

/-- The lanes an LVW or LVR names: one, or all 16 (R119). -/
def laneList : Option (Fin 16) → List Nat
  | some l => [l.val]
  | none => List.range 16

/-- LVW: the code, and LVL_EN with it (R119, R120). -/
def execLvw (x : Iss) (src : Src16) (en : Bool) (lane : Option (Fin 16)) (dac : BitVec 4) (s : State) :
    Host.Outcome State Fault Refusal :=
  .next (s.issue x (lvlForm (src16Regs src) [] (decide (dac.toNat ≤ 8))) (fun s =>
    let v := s.src16 x src
    s.each (laneList lane) (fun s l =>
      (s.lvlWrite x.eng.val l dac.toNat v).iff en (fun s => s.put (laneA x.eng.val l) 0 true))))

/-- LVR: range A or B (R119, R281, R282). -/
def execLvr (x : Iss) (lane : Option (Fin 16)) (b : Bool) (s : State) : Host.Outcome State Fault Refusal :=
  .next (s.issue x (lvlForm [] []) (fun s =>
    s.each (laneList lane) (fun s l => s.rangeSel x.eng.val l b (fun s => s.engFault x.eng.val clsCfg 0))))

/-- LVQ -/
def execLvq (x : Iss) (rd : Gr) (l : Fin 16) (dac : BitVec 4) (s : State) : Host.Outcome State Fault Refusal :=
  .next (s.issue x (lvlForm [] [rd] (decide (dac.toNat ≤ 8))) (fun s =>
    let n := x.eng.val
    s.setReg x rd (BitVec.ofNat 64 (s.rdf (lvlA n l.val dac.toNat) 0 16
      + (s.tst (laneA n l.val) 17).toNat * 2 ^ 16 + (s.tst (laneA n l.val) 16).toNat * 2 ^ 17))))

end Sys2Proof.Machine
end

