-- ==== Sys2Proof/Machine/Tx.lean ====
section
/-! DEFINITION. The TX port: sample positions, tones and their samples, segment entries, plays, requests, triggers and
markers (R204–R229). A position is an elapsed fifteenth of a tick. -/

namespace Sys2Proof.Machine

/-! Positions (R205, R218) -/

/-- The anchor index of TX[n] at a position (R205, R209). -/
def State.txN (s : State) (n pos : Nat) : Nat :=
  (15 * (s.anchorDiff n).toNat + pos) % (15 * 2 ^ 48)

/-- The first granule boundary of TX[n] at or after a position: counted from its start, or the grid of N; a start still to come begins its own
grid (R218). -/
def State.txGrid (s : State) (n pos : Nat) : Nat :=
  let x := s.tx n
  let g := s.granule
  let onPlays (a : Nat) : Nat := if pos ≤ a then a else pos + (g - (pos - a) % g) % g
  let idle := pos + (g - s.txN n pos % g) % g
  if x.st = .playing ∨ x.st = .waiting then onPlays x.gridAt
  else
    match x.startAt with
    | some a => if a < idle then onPlays a else idle
    | none => idle

/-- The first TX sample at or after an elapsed tick. -/
def State.txEdge (s : State) (tick : Nat) : Nat := 15 * tick + (if s.season = 1 then (4 - 15 * tick % 4) % 4 else 0)

/-- The sample of "the next slot" of an instruction that issues on WE n (R92). -/
def State.weNext (s : State) (n : Nat) : Nat :=
  let e := s.eng (64 + n)
  if e.timed then 15 * e.slotAt + e.slotOff + s.granule * (e.secLen + 1) else s.txGrid n (15 * (s.now + 4))

/-! Tables (R214–R216): TX tables are numbers 0–2, RX tables 4–6 -/

/-- The key of word w of table t of port n. -/
def tabKey (n t w : Nat) : Nat := (n * 8 + t) * 2 ^ 18 + w

/-- Entry `seg` of the segment table. -/
def State.segEntry (s : State) (n seg : Nat) : List Word64 :=
  (List.range 4).map (fun w => s.tab (tabKey n 0 (4 * seg + w)))

/-- Word w of a segment entry, and its fields (R214). -/
def segWord (e : List Word64) (w : Nat) : Word64 := e.getD w 0
def segValid (e : List Word64) : Bool := bit (segWord e 0) 62
def segEnd (e : List Word64) : Bool := bit (segWord e 0) 61
def segWait (e : List Word64) : Bool := bit (segWord e 0) 60
def segVtarget (e : List Word64) : BitVec 10 := BitVec.ofNat 10 (fld (segWord e 0) 50 10)
def segNext (e : List Word64) : BitVec 10 := BitVec.ofNat 10 (fld (segWord e 0) 40 10)
def segRep (e : List Word64) : Nat := fld (segWord e 0) 24 16
def segLen (e : List Word64) : Nat := fld (segWord e 0) 0 24
def segEnvDiv (e : List Word64) : Nat := fld (segWord e 1) 54 3
def segEnvStart (e : List Word64) : Nat := fld (segWord e 1) 36 18
def segList (e : List Word64) : Nat := fld (segWord e 1) 24 12
def segEnvMask (e : List Word64) : Nat := fld (segWord e 1) 16 8
def segLoad (e : List Word64) : BitVec 8 := BitVec.ofNat 8 (fld (segWord e 1) 8 8)
def segTones (e : List Word64) : BitVec 8 := BitVec.ofNat 8 (fld (segWord e 1) 0 8)
def segVj (e : List Word64) : Nat := fld (segWord e 2) 62 2
def segVjVal (e : List Word64) : Bool := bit (segWord e 2) 61
def segVjGlob (e : List Word64) : Bool := bit (segWord e 2) 60
def segVjLine (e : List Word64) : Nat := fld (segWord e 2) 52 8

/-- The 26-bit pattern of marker m. -/
def segMark (e : List Word64) (m : Nat) : Nat := fld (segWord e (2 + m / 2)) (26 * (m % 2)) 26

/-- R216: a segment entry that may be committed. -/
def segOk (e : List Word64) : Bool :=
  !(segValid e && decide (segLen e < 3)) && !bit (segWord e 0) 63 && fld (segWord e 1) 57 7 = 0 && fld (segWord e 3) 52 12 = 0
    && decide (segVj e ≠ 3) && !(segVjGlob e && decide (63 < segVjLine e))

/-! Samples (R206–R213) -/

/-- FTW, POFF and A of tone k of TX[n]. -/
def State.txFtw (s : State) (n k : Nat) : Nat := (s.rd64 (rfA n (0x020 + 16 * k))).toNat % 2 ^ 48
def State.txPoff (s : State) (n k : Nat) : Nat := (s.rd (rfA n (0x028 + 16 * k))).toNat
def State.txAmp (s : State) (n k : Nat) : Int := (BitVec.ofNat 16 (s.rdf (rfA n (0x02C + 16 * k)) 0 16)).toInt

/-- θ_k(N) (R206). -/
def thetaTx (ftw poff index : Nat) : Nat := (ftw * index + poff * 2 ^ 16) % 2 ^ 48

/-- The envelope entry of sample i of a play, as real and imaginary part (R213). -/
def State.txEnv (s : State) (n : Nat) (e : List Word64) (i : Nat) : Int × Int :=
  let k := (segEnvStart e + i / 2 ^ segEnvDiv e) % 2 ^ 18
  let w := s.tab (tabKey n 2 (k / 2))
  let h := fld w (32 * (k % 2)) 32
  ((BitVec.ofNat 16 (h / 2 ^ 16)).toInt, (BitVec.ofNat 16 h).toInt)

/-- y_k × 2^45 of tone k at sample i, whose anchor index is `index` (R206). -/
def State.txTone (s : State) (n : Nat) (e : List Word64) (k i index : Nat) : Int :=
  let φ := thetaTx (s.txFtw n k) (s.txPoff n k) index / 2 ^ 26
  if Nat.testBit (segEnvMask e) k then
    let (re, im) := s.txEnv n e i
    s.txAmp n k * (re * ncoCos φ - im * ncoSin φ)
  else s.txAmp n k * ncoCos φ * 2 ^ 15

/-- The samples of a port stand four positions apart in SPRING (R205). -/
def State.txStep (s : State) : Nat := if s.season = 1 then 4 else 1

/-- The DAC code of TX[n] at a position with the settings in effect there, and whether it was clamped (R206, R207). -/
def State.txCodeAt (s : State) (n pos : Nat) : Int × Bool :=
  let x := s.tx n
  if x.st ≠ .playing ∨ pos < x.playAt then (0, false)
  else
    let sum := ((List.range 8).map (fun k =>
      if bit (segTones x.entry) k then s.txTone n x.entry k ((pos - x.playAt) / s.txStep) (s.txN n pos) else 0)).foldl (· + ·) 0
    clampTo (-8192) 8191 (roundShift sum (32 + x.scale.toNat))
def State.txCode (s : State) (n pos : Nat) : Int × Bool := (s.txDue n (pos + 1)).txCodeAt n pos

/-! Markers (R228) -/

/-- Marker m of a playing port, i samples into the play. -/
def markerPat (p plays i : Nat) : Bool :=
  let mode := p / 2 ^ 24
  let start := p / 2 ^ 12 % 2 ^ 12
  let width := p % 2 ^ 12
  if mode = 1 then true
  else if mode = 0 then false
  else (mode = 3 || plays = 0) && decide (start ≤ i) && decide (i ≤ start + width)

/-- The level of marker m of TX[n] at a position. -/
def State.marker (s : State) (n m pos : Nat) : Bool :=
  let x := (s.txDue n (pos + 1)).tx n
  if x.st = .muted ∨ x.slotStopped then false
  else if bit x.ovr m then bit x.ovrLev m
  else if x.st = .playing ∧ x.playAt ≤ pos then markerPat (segMark x.entry m) x.plays ((pos - x.playAt) / s.txStep)
  else false

/-! Faults of a port: KIND 4 -/

def State.txFault (s : State) (n cls lvl : Nat) : State := s.raise cls lvl 4 n 0

/-- TX STAT. -/
def txStatA (n : Nat) : Nat := rfA n 0x004

/-- TX[n] stops at an unusable segment (R217, R218, R220). -/
def State.badSeg (s : State) (n pos cls lvl : Nat) : State :=
  ((s.txHalt n pos .idle).put (txStatA n) 8 true).txFault n cls lvl

/-! Step mode (R226) -/

/-- The module's fault state is active after a fault of level 2 or higher. -/
def State.faultState (s : State) : Bool := decide (2 ≤ s.rdf (fltA 0x000) 0 3)

/-- The port plays in step mode. -/
def State.stepMode (s : State) (n : Nat) : Bool :=
  let x := s.tx n
  s.season = 1 || x.stepStart || (x.stepFault && s.faultState)

/-! Plays -/

/-- A port that waits, or is about to begin, or plays. -/
def TxPort.started (x : TxPort) : Bool := x.st = .playing || x.st = .waiting || x.startAt.isSome

/-- The list entries that a play loads into its tones (R212, R217). -/
def State.loadList (s : State) (n : Nat) (e : List Word64) (ecc : Ecc) : State :=
  let l := segLoad e
  if l = 0 then s
  else
    let s := s.each (List.range 8) (fun s k =>
      if bit l k then
        let i := (segList e + onesBelow l k) % 4096
        let w0 := if ecc = .ue then 0 else s.tab (tabKey n 1 (2 * i))
        let w1 := if ecc = .ue then 0 else s.tab (tabKey n 1 (2 * i + 1))
        ((s.wr64 (rfA n (0x020 + 16 * k)) (BitVec.ofNat 64 (fld w0 0 48))).wr (rfA n (0x02C + 16 * k))
          (BitVec.ofNat 32 (fld w0 48 16))).wr (rfA n (0x028 + 16 * k)) (loHalf w1)
      else s)
    if ecc = .ue then s.txFault n clsEccU 0 else s.iff (ecc = .ce) (fun s => s.txFault n clsEccC 1)

/-- A play of segment `seg` begins at a sample, its entry read there; settings of that sample follow its list (R211, R212, R216, R217, R220). -/
def State.beginPlay (s : State) (n pos : Nat) (seg : BitVec 10) (plays : Nat) (ecc list : Ecc) : State :=
  let e := s.segEntry n seg.toNat
  if ecc = .ue then s.badSeg n pos clsEccU 2
  else if !segValid e then s.badSeg n pos clsCfg 0
  else
    let s := (s.txDue n pos).iff (ecc = .ce) (fun s => s.txFault n clsEccC 1)
    (s.modTx n (fun x =>
      { x with st := .playing, seg := seg, plays := plays, entry := e, playAt := pos, decided := none, startAt := none })).loadList
        n e list

/-- The port comes to the first sample of a segment, or of a repeat: it plays, or waits for a step trigger (R223, R224,
R226). A segment that is not VALID stops it. -/
def State.enterSeg (s : State) (n pos : Nat) (seg : BitVec 10) (plays : Nat) (ecc list : Ecc) : State :=
  let e := s.segEntry n seg.toNat
  if ecc ≠ .ue ∧ segValid e ∧ (s.stepMode n ∨ (segWait e ∧ plays = 0)) then
    match (s.tx n).trig with
    | some t =>
      if t ≤ pos then (s.modTx n (fun x => { x with trig := none })).beginPlay n pos seg plays ecc list
      else
        let s := s.modTx n (fun x => { x with st := .waiting, seg := seg, plays := plays, entry := [], decided := none, trig := none })
        s.modTx n (fun x => { x with startAt := some (s.txGrid n t) })
    | none => s.modTx n (fun x => { x with st := .waiting, seg := seg, plays := plays, entry := [], decided := none, startAt := none })
  else s.beginPlay n pos seg plays ecc list

/-- The decision point and the end of the play in progress (R220). -/
def State.decideAt (s : State) (x : TxPort) : Nat := x.playAt + s.granule * segLen x.entry
def State.playEnd (s : State) (x : TxPort) : Nat := x.playAt + s.granule * (segLen x.entry + 1)

/-- R222: the verdict of a verdict jump at the decision point, with what reading it brings. -/
def State.vjRead (s : State) (n : Nat) (x : TxPort) : Bool × State :=
  let e := x.entry
  let tick := s.decideAt x / 15
  let glob := segVjGlob e
  let line := segVjLine e
  let fs (s : State) : State := s.put (txStatA n) 6 true
  match s.newest glob tick with
  | none => (s.fsafe glob line, if segVj e = 2 then (fs s).txFault n clsTiming 0 else fs s)
  | some k =>
    if segVj e = 2 ∧ s.opensAt k < x.playAt / 15 then (s.fsafe glob line, (fs s).txFault n clsTiming 0)
    else ((s.lineResult glob line (s.dec.vsc + BitVec.ofNat 48 k)).1, s)

/-- What follows the play where no request is taken: cases 3 to 6 of R220. -/
def State.followTable (s : State) (n : Nat) (x : TxPort) : Follow × State :=
  let e := x.entry
  let rest : Follow := if x.plays < segRep e then .again else if segEnd e then .stop else .seg (segNext e)
  if segVj e = 0 then (rest, s)
  else
    let (v, s) := s.vjRead n x
    (if v == segVjVal e then .seg (segVtarget e) else rest, s)

/-- PLAY_DECISION_POINT (R220, R221). -/
def opDecide (n : Nat) (s : State) : State :=
  let x := s.tx n
  if x.st ≠ .playing ∨ x.decided.isSome then s
  else
    let s := s.advanceTo (s.decideAt x / 15)
    let d := s.decideAt x
    let x := s.tx n
    if x.stopReq.any (fun p => decide (p < d)) then s.modTx n (fun x => { x with decided := some .stop })
    else
      match x.req with
      | some (g, p) =>
        if p < d then s.modTx n (fun x => { x with decided := some (.seg g), req := none })
        else (let (f, s) := s.followTable n x; s.modTx n (fun x => { x with decided := some f }))
      | none => let (f, s) := s.followTable n x; s.modTx n (fun x => { x with decided := some f })

def execPlayDecisionPoint (n : Fin 32) (s : State) : Host.Outcome State Fault Refusal := .next (opDecide n.val s)

/-- Late requests that the boundary at the end of the play crosses (R221). -/
def State.lateReqs (s : State) (n : Nat) : State :=
  let x := s.tx n
  let late (p : Nat) : Bool := decide (s.decideAt x ≤ p) && decide (p < s.playEnd x)
  let k := (x.req.any (fun r => late r.2)).toNat + (x.stopReq.any late).toNat
  if k = 0 then s else (s.countN (rfA n 0x014) (txStatA n) 30 k).put (txStatA n) 5 true

/-- The boundary at the end of a play: the next play begins, or the port stops (R209, R220). -/
def State.endPlay (s : State) (n : Nat) (ecc list : Ecc) : State :=
  let s := opDecide n s
  let pos := s.playEnd (s.tx n)
  let s := ((s.advanceTo (pos / 15)).lateReqs n).reanchor n pos
  let x := s.tx n
  match x.decided with
  | some (.seg g) => s.enterSeg n pos g 0 ecc list
  | some .again => s.enterSeg n pos x.seg (x.plays + 1) ecc list
  | _ => s.txHalt n pos .idle

/-- The play that was to begin at a sample begins; an idle port starts there (R218, R223, R226). -/
def State.startPlay (s : State) (n pos : Nat) (ecc list : Ecc) : State :=
  let s := s.advanceTo (pos / 15)
  let x := s.tx n
  if x.st = .waiting then s.beginPlay n pos x.seg x.plays ecc list
  else
    (s.modTx n (fun x => { x with gridAt := pos, startAt := none, stepFault := s.faultState, slotStopped := false })).enterSeg
      n pos x.seg 0 ecc list

/-- SEGMENT_BOUNDARY: the port comes to its next boundary: a stop, the start of a play, or the end of one. `env` is what
the code said of the envelope words the ending play read (R217). -/
def opSegmentBoundary (n : Nat) (ecc list env : Ecc) (s : State) : State :=
  let x := s.tx n
  let s := if x.st = .playing then
      (if env = .ue then s.txFault n clsEccU 0 else s.iff (env = .ce) (fun s => s.txFault n clsEccC 1)) else s
  let next : Option Nat := if x.st = .playing then some (s.playEnd x) else x.startAt
  match x.stopNow, next with
  | some p, some q =>
    if p ≤ q then (s.advanceTo (p / 15)).txHalt n p .idle
    else if x.st = .playing then s.endPlay n ecc list else s.startPlay n q ecc list
  | some p, none => (s.advanceTo (p / 15)).txHalt n p .idle
  | none, some q => if x.st = .playing then s.endPlay n ecc list else s.startPlay n q ecc list
  | none, none => s

def execSegmentBoundary (n : Fin 32) (ecc list env : Ecc) (s : State) : Host.Outcome State Fault Refusal :=
  .next (opSegmentBoundary n.val ecc list env s)

/-! Requests at their arrival (R219–R225) -/

/-- A start of an idle port; a calibration of TX[n] is abandoned (R218, R368). -/
def State.txStart (s : State) (n pos : Nat) (seg : BitVec 10) (step : Bool) : State :=
  (s.modTx n (fun x => { x with seg := seg, plays := 0, stepStart := step, startAt := some pos })).calDrop (1280 + n)

/-- A jump request that arrives at a port which waits for a step trigger: the awaited segment is replaced (R225). -/
def State.jumpWaiting (s : State) (n pos : Nat) (seg : BitVec 10) : State :=
  let e := s.segEntry n seg.toNat
  if !segValid e then s.badSeg n pos clsCfg 0
  else
    s.modTx n (fun x => { x with seg := seg, plays := 0, startAt := if s.stepMode n ∨ segWait e then none else some (s.txGrid n pos) })

/-- A jump request (R121, R220, R221, R225): `refuse` answers it on an IDLE or MUTED port. -/
def State.txJump (s : State) (n pos : Nat) (seg : BitVec 10) (refuse : State → State) : State :=
  let x := s.tx n
  if x.st = .muted ∨ !x.started then refuse s
  else if x.st = .waiting ∧ x.startAt.isNone then s.jumpWaiting n pos seg
  else s.modTx n (fun x => { x with req := some (seg, pos) })

/-- A stop request (R220, R225). -/
def State.txStopReq (s : State) (n pos : Nat) : State :=
  let x := s.tx n
  if x.st = .muted ∨ !x.started then s
  else if x.st = .waiting ∧ x.startAt.isNone then s.txHalt n pos .idle
  else s.modTx n (fun x => { x with stopReq := some (x.stopReq.getD pos) })

/-- A stop at a granule boundary (R219). -/
def State.txStopNow (s : State) (n pos : Nat) : State :=
  let x := s.tx n
  if x.st = .muted ∨ !x.started then s
  else s.modTx n (fun x => { x with stopNow := some (min pos (x.stopNow.getD pos)) })

/-- A step trigger (R223). -/
def State.txTrigger (s : State) (n pos : Nat) : State :=
  let x := s.tx n
  if x.st = .waiting ∧ x.startAt.isNone then s.modTx n (fun x => { x with startAt := some (s.txGrid n pos) })
  else if x.trig.isSome then s.put (txStatA n) 7 true
  else s.modTx n (fun x => { x with trig := some pos })

/-- The WAVE group: a port's own engine is WE n, engine 64 + n. -/
def wavePort (x : Iss) : Nat := x.eng.val - 64

/-- A WAVE instruction. -/
def waveForm (ok : Bool := true) : Form := { grp := 9, ok := ok }

/-- A fault of the port's engine. -/
def State.waveCfg (s : State) (n : Nat) : State := s.engFault (64 + n) clsCfg 0

/-- WPLAY (R121). -/
def opWplay (n : Nat) (seg : BitVec 10) (step : Bool) (s : State) : State :=
  let x := s.tx n
  let pos := s.weNext n
  if x.st = .muted then s.waveCfg n
  else if x.started then s.txJump n pos seg (fun s => s.waveCfg n)
  else s.txStart n pos seg step

def execWplay (x : Iss) (seg : BitVec 10) (stepMode : Bool) (s : State) : Host.Outcome State Fault Refusal :=
  .next (s.issue x waveForm (opWplay (wavePort x) seg stepMode))

/-- WJUMP (R121). -/
def execWjump (x : Iss) (seg : BitVec 10) (s : State) : Host.Outcome State Fault Refusal :=
  .next (s.issue x waveForm (fun s =>
    s.txJump (wavePort x) (s.weNext (wavePort x)) seg (fun s => s.waveCfg (wavePort x))))

/-- WSTOP -/
def execWstop (x : Iss) (now : Bool) (s : State) : Host.Outcome State Fault Refusal :=
  .next (s.issue x waveForm (fun s =>
    let n := wavePort x
    if now then s.txStopNow n (s.txGrid n (s.weNext n)) else s.txStopReq n (s.weNext n)))

/-- WSTEP: ignored on a port that is not in step mode (R121). -/
def opWstep (n : Nat) (s : State) : State :=
  if (s.tx n).started && s.stepMode n then s.txTrigger n (s.weNext n) else s

def execWstep (x : Iss) (s : State) : Host.Outcome State Fault Refusal :=
  .next (s.issue x waveForm (opWstep (wavePort x)))

/-- WTONE (R122): FTW[31:0] is held, and the next FTW[47:32] applies both; from the next slot. -/
def opWtone (n : Nat) (k : Fin 8) (par : Nat) (imm : Word) (s : State) : State :=
  let x := s.tx n
  let soon (d : TxPar) (s : State) : State := s.txSoon n ⟨s.weNext n, true, d⟩
  if par = 0 then s.setTx n { x with ftwLo := (x.ftwLo.filter (fun h => h.1 != k.val)) ++ [(k.val, imm)] }
  else if par = 1 then
    (soon (.ftw k (imm.truncate 16) ((x.ftwLo.find? (fun h => h.1 == k.val)).map (·.2))) s).modTx n (fun x =>
      { x with ftwLo := x.ftwLo.filter (fun h => h.1 != k.val) })
  else if par = 2 then soon (.poff k imm) s
  else soon (.amp k (imm.truncate 16)) s

/-- WTONE: imm32[31:16] is reserved where the parameter has 16 bits (R89). -/
def execWtone (x : Iss) (k : Fin 8) (par : BitVec 2) (imm : Word) (s : State) : Host.Outcome State Fault Refusal :=
  .next (s.issue x (waveForm (par.toNat % 2 = 0 || fld imm 16 16 = 0)) (opWtone (wavePort x) k par.toNat imm))

/-- WMARK (R123): a bit both selected and released is released; from the next slot. -/
def opWmark (n : Nat) (rel sel lev : BitVec 4) (s : State) : State := s.txSoon n ⟨s.weNext n, true, .mark rel sel lev⟩

def execWmark (x : Iss) (rel sel lev : BitVec 4) (s : State) : Host.Outcome State Fault Refusal :=
  .next (s.issue x waveForm (opWmark (wavePort x) rel sel lev))

/-! Host commands (R218, R219, R230) -/

/-- A command on its way: it arrives 8 ticks after the write. -/
def State.txSend (s : State) (p : Path) (n : Nat) (c : TxCmd) : State :=
  s.modTx n (fun x => { x with cmds := x.cmds ++ [(s.now + 8, p, c)] })

/-- START_SEG and JUMP_SEG as they stand. -/
def State.startSeg (s : State) (n : Nat) : BitVec 10 := BitVec.ofNat 10 (s.rdf (rfA n 0x008) 16 10)
def State.jumpSeg (s : State) (n : Nat) : BitVec 10 := BitVec.ofNat 10 (s.rdf (rfA n 0x008) 2 10)

def execPlay (p : Path) (n : Fin 32) (s : State) : Host.Outcome State Fault Refusal :=
  .next (s.host p (rfA n.val 0x000) (fun s => s.txSend p n.val (.play (s.startSeg n.val) false)))

def execPlayStep (p : Path) (n : Fin 32) (s : State) : Host.Outcome State Fault Refusal :=
  .next (s.host p (rfA n.val 0x000) (fun s => s.txSend p n.val (.play (s.startSeg n.val) true)))

def execJump (p : Path) (n : Fin 32) (s : State) : Host.Outcome State Fault Refusal :=
  .next (s.host p (rfA n.val 0x000) (fun s => s.txSend p n.val (.jump (s.jumpSeg n.val))))

def execStep (p : Path) (n : Fin 32) (s : State) : Host.Outcome State Fault Refusal :=
  .next (s.host p (rfA n.val 0x000) (fun s => s.txSend p n.val .step))

def execStopEnd (p : Path) (n : Fin 32) (s : State) : Host.Outcome State Fault Refusal :=
  .next (s.host p (rfA n.val 0x000) (fun s => s.txSend p n.val .stopEnd))

def execTxStopNow (p : Path) (n : Fin 32) (s : State) : Host.Outcome State Fault Refusal :=
  .next (s.host p (rfA n.val 0x000) (fun s => s.txSend p n.val .stopNow))

/-- A host command acts at the port (R218–R225, R227). -/
def State.txAct (s : State) (p : Path) (n pos : Nat) (c : TxCmd) : State :=
  match c with
  | .play seg step =>
    if (s.tx n).st = .idle ∧ !(s.tx n).started then s.txStart n (s.txGrid n pos) seg step else s.cfgErr p
  | .jump seg => s.txJump n pos seg (fun s => s.cfgErr p)
  | .step => s.txTrigger n pos
  | .stopEnd => s.txStopReq n pos
  | .stopNow => s.txStopNow n (s.txGrid n pos)

/-- TX_REQUEST_ARRIVAL: the oldest command on its way arrives. -/
def opTxArrival (n : Nat) (s : State) : State :=
  match (s.tx n).cmds with
  | [] => s
  | (t, p, c) :: rest =>
    let s := s.advanceTo t
    (s.modTx n (fun x => { x with cmds := rest })).txAct p n (s.txEdge t) c

def execTxRequestArrival (n : Fin 32) (s : State) : Host.Outcome State Fault Refusal := .next (opTxArrival n.val s)

/-! Tone registers, routing, clipping -/

/-- The first granule boundary of the port 8 ticks on (R211). -/
def State.txLater (s : State) (n : Nat) : Nat := s.txGrid n (15 * (s.now + 8))

/-- A write of register r of tone k: 0 FTW_LO, 1 FTW_HI, 2 POFF, 3 AMP (R12, R211). -/
def State.toneSet (s : State) (p : Path) (n : Nat) (k : Fin 8) (r : Nat) (v : Word) : State :=
  let a := rfA n (0x020 + 16 * k.val)
  let soon (d : TxPar) : State := s.txSoon n ⟨s.txLater n, false, d⟩
  if r = 0 then s.holdLo p a (some v)
  else if r = 1 then (soon (.ftw k (v.truncate 16) (s.heldLo p a))).holdLo p a none
  else if r = 2 then soon (.poff k v)
  else soon (.amp k (v.truncate 16))

/-- A write of CFG: SCALE follows at the same boundary. -/
def State.txCfgSet (s : State) (n : Nat) (v : Word) : State :=
  (s.wr (rfA n 0x008) (v &&& 0x03FF0FFF)).txSoon n ⟨s.txLater n, false, .scale (v.truncate 2)⟩

/-- What a TONE register reads: the parameters in effect now. -/
def State.toneGet (s : State) (n o : Nat) : Word := (s.txDue n (15 * s.now + 1)).rd (rfA n o)

def execToneWrite (p : Path) (n : Fin 32) (k : Fin 8) (r : Fin 4) (v : Word) (s : State) :
    Host.Outcome State Fault Refusal :=
  .next (s.host p (rfA n.val (0x020 + 16 * k.val + 4 * r.val)) (fun s => s.toneSet p n.val k r.val v))

/-- R229: a routing word without a reserved bit, its line in range. -/
def mkOk (v : Word) : Bool :=
  fld v 26 4 = 0 && fld v 10 14 = 0
    && (if fld v 30 2 = 2 then fld v 8 2 = 0 else if fld v 30 2 = 3 then fld v 6 4 = 0 else true)

/-- The route of marker m is in effect from the next granule boundary. -/
def State.mkrouteSet (s : State) (p : Path) (n : Nat) (m : Fin 4) (v : Word) : State :=
  if mkOk v then (s.wr (rfA n (0x0C0 + 4 * m.val)) v).txSoon n ⟨s.txGrid n (15 * s.now), false, .route m v⟩ else s.cfgErr p

def execMkrouteWrite (p : Path) (n : Fin 32) (m : Fin 4) (v : Word) (s : State) : Host.Outcome State Fault Refusal :=
  .next (s.host p (rfA n.val (0x0C0 + 4 * m.val)) (fun s => s.mkrouteSet p n.val m v))

/-- The first position of the current tick at which marker m has a level. -/
def State.markAt (s : State) (n m : Nat) (level : Bool) : Option Nat :=
  ((List.range 15).map (fun j => 15 * s.now + j)).find? (fun q => s.marker n m q == level)

/-- The route of marker m in effect at a position (R229). -/
def State.routeOf (s : State) (n m pos : Nat) : Word := ((s.txDue n (pos + 1)).tx n).route.getD m 0

/-- The marker input of a pin: the OR of the markers routed to it (R229). -/
def State.pinMarker (s : State) (pin : Nat) : Bool :=
  (List.range 32).any (fun n => (List.range 4).any (fun m =>
    let r := s.routeOf n m (15 * s.now)
    fld r 30 2 = 1 && fld r 0 10 = pin && bit (s.tx n).mark m))

/-- MARKER_EDGE: marker m of TX[n] comes to a level in this tick (R228, R229). -/
def opMarkerEdge (n m : Nat) (level : Bool) (s : State) : State :=
  if bit (s.tx n).mark m == level ∨ (s.markAt n m level).isNone then s
  else
    let r := s.routeOf n m ((s.markAt n m level).getD (15 * s.now))
    let s := s.modTx n (fun x => { x with mark := setb x.mark m level })
    let dest := fld r 30 2
    if dest = 1 then s.emit (.markerPin (fld r 0 10) (s.pinMarker (fld r 0 10)))
    else if dest ≠ 0 ∧ bit r 25 = !level then
      s.post (s.now + 8) (dest = 3) (if dest = 2 then fld r 0 8 else fld r 0 6) (bit r 24)
    else s

def execMarkerEdge (n : Fin 32) (m : Fin 4) (level : Bool) (s : State) : Host.Outcome State Fault Refusal :=
  .next (opMarkerEdge n.val m.val level s)

/-- TX_SAMPLE_CLIP (R207). -/
def execTxSampleClip (n : Fin 32) (s : State) : Host.Outcome State Fault Refusal :=
  .next ((s.count (rfA n.val 0x010) (txStatA n.val) 31).put (txStatA n.val) 10 true)

/-! Table access of both ports (R215, R216, R231, R254) -/

/-- Words of a table: TX tables 0–2, RX tables 4–6. -/
def tabSize (t : Nat) : Nat := [4096, 8192, 131072, 0, 16384, 4096, 64, 0].getD t 0

/-- The TAB block, its TAB_ERR bit and register, and its tables' first number. -/
def tabBase (n : Nat) (rx : Bool) : Nat := rfA n (if rx then 0x4400 else 0x100)
def State.tabErr (s : State) (p : Path) (n : Nat) (rx : Bool) : State :=
  (if rx then s.put (rfA n 0x4004) 4 true else s.put (txStatA n) 9 true).cfgErr p
def State.tabNo (s : State) (n : Nat) (rx : Bool) : Nat := s.rdf (tabBase n rx) 0 2 + (if rx then 4 else 0)

/-- Words of one entry of a table that commits whole entries. -/
def entryWords (t : Nat) : Nat := if t = 0 then 4 else if t = 1 then 2 else 1

/-- A word of an entry as staged, else as it stands. -/
def State.staged (s : State) (n t w : Nat) : Word64 :=
  ((((s.tx n).stage.find? (fun v => v.1 == tabKey n t w)).map (·.2)).getD (s.tab (tabKey n t w)))

/-- A TX table word written: staged, or the whole entry committed or refused (R216). -/
def State.txTabWrite (s : State) (p : Path) (n t w : Nat) (v : Word64) : State :=
  let c := entryWords t
  if w % c + 1 < c then
    s.modTx n (fun x => { x with stage := x.stage.filter (fun h => h.1 != tabKey n t w) ++ [(tabKey n t w, v)] })
  else
    let b := w - w % c
    let e := (List.range (c - 1)).map (fun i => s.staged n t (b + i)) ++ [v]
    let s := s.modTx n (fun x =>
      { x with stage := x.stage.filter (fun h => !(decide (tabKey n t b ≤ h.1) && decide (h.1 < tabKey n t (b + c)))) })
    if t = 0 ∧ !segOk e then s.tabErr p n false
    else s.each (List.range c) (fun s i => s.setTab (tabKey n t (b + i)) (e.getD i 0))

/-- An RX table word written (R254); a COND of 0b11 is refused (R249). -/
def State.rxTabWrite (s : State) (p : Path) (n t w : Nat) (v : Word64) : State :=
  if (t = 5 ∨ t = 6) ∧ (s.rx n).acq.run then s.tabErr p n true
  else if t = 6 ∧ w % 2 = 0 ∧ fld v 30 2 = 3 then s.tabErr p n true
  else
    let k := tabKey n t w
    (s.iff (t = 4) (fun s => s.keepOld n ⟨30 * s.now, 2 ^ 30 + k, s.tab k⟩)).setTab k v

/-- An access to TAB_DATA_HI: `none` reads the latched half, `some hi` writes the word (R215). The TAB_ADDR then moves on. -/
def State.tabAccess (s : State) (p : Path) (n : Nat) (rx : Bool) (wr : Option Word) : Word × State :=
  let b := tabBase n rx
  let t := s.tabNo n rx
  let w := (s.rd (b + 4)).toNat
  if tabSize t ≤ w then (0, (s.holdLo p (b + 8) none).tabErr p n rx)
  else
    let s' := match wr with
      | none => s
      | some hi =>
        let v := s.pairOf p (b + 8) hi
        let s := s.holdLo p (b + 8) none
        if rx then s.rxTabWrite p n t w v else s.txTabWrite p n t w v
    (s.getLatch p, s'.wr (b + 4) (BitVec.ofNat 32 (w + 1)))

/-- A read of TAB_DATA_LO latches the high half (R11, R215). -/
def State.tabLo (s : State) (p : Path) (n : Nat) (rx : Bool) : Word × State :=
  let t := s.tabNo n rx
  let w := (s.rd (tabBase n rx + 4)).toNat
  if tabSize t ≤ w then (0, (s.setLatch p 0).tabErr p n rx)
  else
    let v := s.tab (tabKey n t w)
    (loHalf v, s.setLatch p (hiHalf v))

/-- TAB_DATA_ACCESS -/
def execTabDataAccess (p : Path) (n : Fin 32) (rx : Bool) (wr : Option Word) (s : State) :
    Host.Outcome State Fault Refusal :=
  .next (match wr with
    | none => s.hostRead p (tabBase n.val rx + 12) (fun s => s.tabAccess p n.val rx none)
    | some hi => s.host p (tabBase n.val rx + 12) (fun s => (s.tabAccess p n.val rx (some hi)).2))

/-- A write of TAB_SEL (R230, R231, R254). -/
def State.tabSel (s : State) (p : Path) (n : Nat) (rx : Bool) (v : Word) : State :=
  if fld v 0 2 = 3 then s.tabErr p n rx
  else
    let s := (s.wr (tabBase n rx) (BitVec.ofNat 32 (fld v 0 2))).wr (tabBase n rx + 4) 0
    if rx then s else s.modTx n (fun x => { x with stage := [] })

def execTabSelWrite (p : Path) (n : Fin 32) (rx : Bool) (v : Word) (s : State) : Host.Outcome State Fault Refusal :=
  .next (s.host p (tabBase n.val rx) (fun s => s.tabSel p n.val rx v))

end Sys2Proof.Machine
end

