-- ==== Sys2Proof/Machine/Rx.lean ====
section
/-! DEFINITION. The RX port: its sample grid and NCO, integration windows and discriminator, the result FIFO, and the
acquisition stream with its triggers (R233–R254). A position is an elapsed thirtieth of a tick. -/

namespace Sys2Proof.Machine

/-! Values as they stood at a sample (R235, R236) -/

/-- What the port reads for a key at a position: its value before the first change that takes effect later. -/
def State.rxAt (s : State) (n key pos : Nat) (cur : Word64) : Word64 :=
  match (s.rx n).old.find? (fun o => o.key == key && decide (pos < o.until_)) with
  | some o => o.val
  | none => cur

/-- A register, or a pair by its low half, at a position. -/
def State.rxReg (s : State) (n o pos : Nat) : Word :=
  loHalf (s.rxAt n (rxA n o) pos ((s.rd (rxA n o)).zeroExtend 64))
def State.rxPair (s : State) (n o pos : Nat) : Word64 := s.rxAt n (rxA n o) pos (s.rd64 (rxA n o))

/-- The sample index F at a position (R233, R235). -/
def State.rxF (s : State) (n pos : Nat) : Nat :=
  (30 * (s.rxAt n 0 pos ((s.anchorDiff n).zeroExtend 64)).toNat + pos) % (30 * 2 ^ 48)

/-- Positions from one ADC sample to the next (R233). -/
def State.rxStep (s : State) : Nat := if s.season = 1 then 8 else 3

/-- The first RX sample at or after a position. -/
def State.rxFirst (s : State) (n pos : Nat) : Nat :=
  pos + (s.rxStep - s.rxF n pos % s.rxStep) % s.rxStep

/-- The first RX sample at or after the first TX sample of the next slot of WE n (R233). -/
def State.rxNext (s : State) (n : Nat) : Nat := s.rxFirst n (2 * s.weNext n)

/-- The first RX sample at or after 8 ticks after a write. -/
def State.rxLater (s : State) (n : Nat) : Nat := s.rxFirst n (30 * (s.now + 8))

/-- Full Time of an elapsed tick, on the count that runs now. -/
def State.fullAt (s : State) (t : Nat) : Word64 :=
  if s.now ≤ t then
    let w := s.wtc.toNat + (t - s.now)
    ((if w < 2 ^ 48 then s.epoch else epochWrap s.epoch) ++ BitVec.ofNat 48 w)
  else
    let d := s.now - t
    let e : BitVec 16 := if d ≤ s.wtc.toNat ∨ s.epoch = 0 then s.epoch else if s.epoch = 1 then 0xFFFF else s.epoch - 1
    (e ++ (s.wtc - BitVec.ofNat 48 d))

def State.rxFault (s : State) (n cls lvl : Nat) : State := s.raise cls lvl 4 n 0

/-- What the code says of a word of a port's tables (R253). -/
def State.tabSeen (s : State) (n : Nat) (e : Ecc) : State :=
  if e = .ue then s.rxFault n clsEccU 0 else s.iff (e = .ce) (fun s => s.rxFault n clsEccC 1)

/-! Mixed samples (R234) -/

/-- θ_k(F) of a tuning word and an offset. -/
def thetaRx (ftw poff f : Nat) : Nat := ((ftw * f + poff * 2 ^ 17) / 2) % 2 ^ 48

/-- The mixed sample of ADC code x on tone k at a position. -/
def State.mixed (s : State) (n k pos : Nat) (x : BitVec 12) : Int × Int :=
  let ftw := (s.rxPair n (0x4040 + 16 * k) pos).toNat % 2 ^ 48
  let poff := (s.rxReg n (0x4048 + 16 * k) pos).toNat
  let φ := thetaRx ftw poff (s.rxF n pos) / 2 ^ 26
  (x.toInt * ncoCos φ, -x.toInt * ncoSin φ)

/-! Windows and results (R236–R241) -/

/-- Weight i of tone k at a position, `bad` naming a word that reads 0. -/
def State.weight (s : State) (n k i pos : Nat) (bad : Option Nat) : Int × Int :=
  let w := k * 2048 + i / 2
  if bad = some w then (0, 0)
  else
    let v := s.rxAt n (2 ^ 30 + tabKey n 4 w) pos (s.tab (tabKey n 4 w))
    let h := fld v (32 * (i % 2)) 32
    ((BitVec.ofNat 16 (h / 2 ^ 16)).toInt, (BitVec.ofNat 16 h).toInt)

/-- The accumulators of a window over its samples from number i on (R236). -/
def State.accum (s : State) (n : Nat) (w : Win) (codes : List (BitVec 12)) (bad : Option Nat) : Int × Int :=
  (List.range w.len).foldl (fun (a : Int × Int) i =>
    let pos := w.start + w.step * i
    let (mr, mi) := s.mixed n w.tone.val pos (codes.getD i 0)
    let (wr, wi) := s.weight n w.tone.val (i / 2 ^ w.wdiv) pos bad
    (a.1 + (mr * wr - mi * wi), a.2 + (mr * wi + mi * wr))) (0, 0)

/-- I or Q, and whether it was clamped (R236). -/
def resultOf (acc : Int) (rshift : Nat) : Int × Bool :=
  clampTo (-2 ^ 31) (2 ^ 31 - 1) ((acc + 2 ^ (29 + rshift)) / 2 ^ (30 + rshift))

/-- The position of a window's last sample, and the tick that holds it. -/
def Win.lastPos (w : Win) : Nat := w.start + w.step * (w.len - 1)
def Win.endTick (w : Win) : Nat := w.lastPos / 30

/-- The discriminator at a tick (R238). -/
def State.discState (s : State) (n k : Nat) (i q : Int) (tick : Nat) : Nat :=
  let pos := 30 * tick + 29
  let d := (List.range 3).foldl (fun d b =>
    let c := s.rxReg n (0x4100 + 32 * k + 8 * b) pos
    let t := (s.rxReg n (0x4104 + 32 * k + 8 * b) pos).toInt
    let a : Int := (BitVec.ofNat 16 (fld c 16 16)).toInt * i + (BitVec.ofNat 16 (fld c 0 16)).toInt * q
    d + (decide (t * 2 ^ 15 ≤ a)).toNat * 2 ^ b) 0
  fld (s.rxReg n (0x4118 + 32 * k) pos) (2 * d) 2

/-- The bits of a signed 32-bit value. -/
def bits32 (x : Int) : Nat := (BitVec.ofInt 32 x).toNat

/-- The result record (R240). -/
def resultBits (w : Win) (st : Nat) (sat pre : Bool) (i q : Int) (ref : Word64) : BitVec 256 :=
  BitVec.ofNat 256 (4 * 2 ^ 252 + w.tone.val * 2 ^ 249 + st * 2 ^ 247 + sat.toNat * 2 ^ 246 + w.post.toNat * 2 ^ 245
    + pre.toNat * 2 ^ 244 + w.tag.toNat * 2 ^ 224 + bits32 i / 2 ^ 16 * 2 ^ 208 + bits32 q / 2 ^ 16 * 2 ^ 192
    + bits32 i * 2 ^ 160 + bits32 q * 2 ^ 128 + w.full.toNat % 2 ^ 40 * 2 ^ 88 + w.start % 30 * 2 ^ 83
    + (w.len - 1) * 2 ^ 64 + ref.toNat)

/-- RES_SINK is HOST. -/
def State.resHost (s : State) (n : Nat) : Bool := s.tst (rxA n 0x4008) 2

/-- The oldest result of a FIFO, past the beacons before it, and what is left. -/
def popResult : List (BitVec 256) → Option (BitVec 256) × List (BitVec 256)
  | [] => (none, [])
  | r :: t => if fld r 252 4 = 2 then popResult t else (some r, t)

/-- RRES instructions that wait take the entries there are (R241). -/
def State.rresServe (s : State) (n : Nat) : List Nat → State
  | [] => s.modRx n (fun x => { x with rres := [] })
  | k :: t =>
    match popResult (s.rx n).fifo with
    | (some r, f) =>
      ((s.modRx n (fun x => { x with fifo := f })).modEng (64 + n) (fun e => e.fill k (BitVec.ofNat 64 (fld r 192 64)))).rresServe
        n t
    | (none, f) => s.modRx n (fun x => { x with fifo := f, rres := k :: t })

/-- The waiting RRES instructions are served under ENGINE. -/
def State.rresNow (s : State) (n : Nat) : State :=
  if s.resHost n ∨ (s.rx n).rres.isEmpty then s else s.rresServe n (s.rx n).rres

/-- READOUT_RESULT: the oldest window of tone k makes its outputs at tick E + 32 (R239). -/
def opReadoutResult (n : Nat) (k : Fin 8) (codes : List (BitVec 12)) (word : BitVec 11) (ecc : Ecc) (s : State) : State :=
  match (s.rx n).wins.find? (fun w => w.tone == k) with
  | none => s
  | some w =>
    let s := s.advanceTo (w.endTick + 32)
    let (re, im) := s.accum n w codes (if ecc = .ue then some (k.val * 2048 + word.toNat) else none)
    let (i, c) := resultOf re w.rshift
    let (q, d) := resultOf im w.rshift
    let st := s.discState n k.val i q w.endTick
    let tick := w.endTick + 32
    let line := if w.glob then w.line.toNat % 64 else w.line.toNat
    let v := s.rxReg n (0x4118 + 32 * k.val) (30 * w.endTick + 29)
    let ref := if w.post then vref w.glob line (s.slotNum tick) else 0
    let s := (s.tabSeen n ecc).iff w.post (fun s => s.post tick w.glob line (bit v (16 + st)))
    let s := s.modRx n (fun x => { x with wins := x.wins.erase w })
    (s.iff w.fifo (fun s => s.fifoRecord n (fun last =>
      resultBits w st (c || d) (decide (w.full.toNat < last.toNat)) i q ref))).rresNow n

def execReadoutResult (n : Fin 32) (k : Fin 8) (codes : List (BitVec 12)) (word : BitVec 11) (ecc : Ecc) (s : State) :
    Host.Outcome State Fault Refusal :=
  .next (opReadoutResult n.val k codes word ecc s)

/-- A window on some tone, or on tone k, is open at a position (R124). -/
def RxPort.openAt (x : RxPort) (pos : Nat) : Bool := x.wins.any (fun w => decide (pos ≤ w.lastPos))
def RxPort.toneOpen (x : RxPort) (k : Fin 8) (pos : Nat) : Bool :=
  x.wins.any (fun w => w.tone == k && decide (pos ≤ w.lastPos))

/-- The position at which an instruction of WE n issues. -/
def State.weHere (s : State) (n : Nat) : Nat :=
  let e := s.eng (64 + n)
  if e.timed then 2 * (15 * e.slotAt + e.slotOff + s.granule * e.secLen) else 30 * s.now

/-- RINT (R124, R236, R239). A calibration of RX[n] is abandoned (R368). -/
def opRint (n : Nat) (k : Fin 8) (fifo post glob : Bool) (line : BitVec 8) (s : State) : State :=
  if (s.rx n).toneOpen k (s.weHere n) then s.waveCfg n
  else
    let pos := s.rxNext n
    let v := s.rd (rxA n (0x404C + 16 * k.val))
    let x := s.rx n
    let w : Win :=
      { tone := k, start := pos, step := s.rxStep, len := fld v 0 19 + 1, wdiv := fld v 28 3, rshift := fld v 24 4,
        fifo := fifo, post := post, glob := glob, line := line, tag := x.tagCnt, full := s.fullAt (pos / 30) }
    (s.setRx n { x with wins := x.wins ++ [w], tagCnt := x.tagCnt + 1 }).calDrop (1312 + n)

/-- RINT: imm32[7:6] is reserved for a global line. -/
def execRint (x : Iss) (k : Fin 8) (fifo post glob : Bool) (line : BitVec 8) (s : State) : Host.Outcome State Fault Refusal :=
  .next (s.issue x { grp := 10, ok := !glob || decide (line.toNat < 64) } (opRint (wavePort x) k fifo post glob line))

/-- RRES (R241). -/
def opRres (x : Iss) (rd : Gr) (s : State) : State :=
  let n := wavePort x
  if s.resHost n then s.takeTag x rd (some 0) (.exact (s.now + 6))
  else
    let k := (s.eng x.eng.val).freeTag.getD 0
    ((s.takeTag x rd none .rres).modRx n (fun y => { y with rres := y.rres ++ [k] })).rresNow n

def execRres (x : Iss) (rd : Gr) (s : State) : Host.Outcome State Fault Refusal :=
  .next (s.issue x { grp := 10, dst := [rd], tag := true } (opRres x rd))

/-- The latch of a reader path (R241). -/
def State.resLatchOf (s : State) (p : Path) (n : Nat) : BitVec 256 := tget (fun _ => 0) s.resLatch (32 * pathKey p + n)

/-- RES_DATA[w] as a path reads it; an empty FIFO gives the entry 0, of TYPE 0x0 (R241). -/
def State.resData (s : State) (p : Path) (n w : Nat) : Word × State :=
  if !s.resHost n then (0, s)
  else if w = 0 then
    match (s.rx n).fifo with
    | [] => (0, { s with resLatch := tset (fun _ => 0) s.resLatch (32 * pathKey p + n) 0 })
    | r :: t =>
      (r.truncate 32, { (s.modRx n (fun x => { x with fifo := t })) with
        resLatch := tset (fun _ => 0) s.resLatch (32 * pathKey p + n) r })
  else (BitVec.ofNat 32 (fld (s.resLatchOf p n) (32 * w) 32), s)

/-- RES_DATA_READ: a host read of RES_DATA[0]. -/
def execResDataRead (p : Path) (n : Fin 32) (s : State) : Host.Outcome State Fault Refusal :=
  .next (s.hostRead p (rxA n.val 0x4020) (fun s => s.resData p n.val 0))

/-- RES_FLUSH: the FIFO is emptied and a START beacon written (R241). -/
def State.resFlush (s : State) (n : Nat) : State := (s.modRx n (fun x => { x with fifo := [] })).fifoBeacon n 4 0

def execResFlush (p : Path) (n : Fin 32) (s : State) : Host.Outcome State Fault Refusal :=
  .next (s.host p (rxA n.val 0x4000) (fun s => s.resFlush n.val))

/-! Demodulation registers (R235, R237) -/

/-- A write of register r of tone k: 0 FTW_LO, 1 FTW_HI, 2 POFF. It acts from the first sample 8 ticks on. -/
def State.demodSet (s : State) (p : Path) (n k r : Nat) (v : Word) : State :=
  let o := 0x4040 + 16 * k
  let a := rxA n o
  if r = 0 then s.holdLo p a (some v)
  else if r = 1 then
    ((s.keepOld n ⟨s.rxLater n, a, s.rd64 a⟩).wr64 a (s.pairOf p a (BitVec.ofNat 32 (fld v 0 16)))).holdLo p a none
  else (s.keepOld n ⟨s.rxLater n, a + 8, (s.rd (a + 8)).zeroExtend 64⟩).wr (a + 8) v

def execDemodWrite (p : Path) (n : Fin 32) (k : Fin 8) (r : Fin 3) (v : Word) (s : State) :
    Host.Outcome State Fault Refusal :=
  .next (s.host p (rxA n.val (0x4040 + 16 * k.val + 4 * r.val)) (fun s => s.demodSet p n.val k.val r.val v))

/-- R237: a window configuration that is not refused. -/
def winOk (v : Word) : Bool := decide (15 ≤ fld v 0 19) && decide (fld v 0 19 ≤ 4096 * 2 ^ fld v 28 3 - 1)

def State.demodWinSet (s : State) (p : Path) (n k : Nat) (v : Word) : State :=
  if winOk v then s.wr (rxA n (0x404C + 16 * k)) (v &&& 0x7F07FFFF) else s.cfgErr p

def execDemodWinWrite (p : Path) (n : Fin 32) (k : Fin 8) (v : Word) (s : State) : Host.Outcome State Fault Refusal :=
  .next (s.host p (rxA n.val (0x404C + 16 * k.val)) (fun s => s.demodWinSet p n.val k.val v))

/-- A discriminator register written: the windows that have ended keep the old one (R238). -/
def State.discSet (s : State) (n o : Nat) (v : Word) : State :=
  (s.keepOld n ⟨30 * s.now, rxA n o, (s.rd (rxA n o)).zeroExtend 64⟩).wr (rxA n o) v

/-! The acquisition stream: records (R243–R245) -/

def State.acq (s : State) (n : Nat) : Acq := (s.rx n).acq
def State.modAcq (s : State) (n : Nat) (f : Acq → Acq) : State := s.modRx n (fun x => { x with acq := f x.acq })

/-- Samples a data record holds. -/
def recSize (demod : Bool) : Nat := if demod then 3 else 16

/-- The data record of some samples. -/
def dataBits (demod : Bool) (l : List SSample) : BitVec 256 :=
  match l with
  | [] => 0
  | f :: _ =>
    let pay := (l.zipIdx.map (fun v =>
      if demod then (bits32 v.1.i * 2 ^ 32 + bits32 v.1.q) * 2 ^ (64 * v.2)
      else (BitVec.ofInt 12 v.1.i).toNat * 2 ^ (12 * v.2))).foldl (· + ·) 0
    BitVec.ofNat 256 (5 * 2 ^ 252 + (l.length - 1) * 2 ^ 248 + demod.toNat * 2 ^ 247 + f.full.toNat % 2 ^ 40 * 2 ^ 200
      + f.pos * 2 ^ 195 + pay)

/-- A mark record. -/
def markBits (src : Nat) (short : Bool) (v : SSample) (code : Nat) (pre : Nat) : BitVec 256 :=
  BitVec.ofNat 256 (6 * 2 ^ 252 + src * 2 ^ 248 + short.toNat * 2 ^ 247 + v.full.toNat % 2 ^ 40 * 2 ^ 200 + v.pos * 2 ^ 195
    + v.sidx % 2 ^ 48 * 2 ^ 144 + code * 2 ^ 128 + pre * 2 ^ 112)

/-- The record being filled goes to the queue, its marks directly before it in the order of SIDX and SRC (R245). -/
def State.aqFlush (s : State) (n : Nat) : State :=
  let a := s.acq n
  match a.recent with
  | [] => s
  | f :: _ =>
    let ms := a.marks.mergeSort (fun x y => decide (x.sidx < y.sidx) || (x.sidx == y.sidx && decide (x.src ≤ y.src)))
    let s := s.each ms (fun s m => s.aqPush n ⟨f.tick, f.full, 0, .record m.bits⟩)
    (s.aqPush n ⟨f.tick, f.full, 0, .record (dataBits a.demod a.recent)⟩).modAcq n (fun a => { a with recent := [], marks := [] })

/-- A sample written: it joins the record being filled. -/
def State.aqAdd (s : State) (n : Nat) (v : SSample) : State :=
  let s := s.modAcq n (fun a => { a with recent := a.recent ++ [v] })
  s.iff (decide (recSize (s.acq n).demod ≤ (s.acq n).recent.length)) (fun s => s.aqFlush n)

/-- A mark, directly before the record that will hold its sample; where no record will, at once. -/
def State.aqMark (s : State) (n : Nat) (m : Mark) (v : SSample) (held : Bool) : State :=
  if held then s.modAcq n (fun a => { a with marks := a.marks ++ [m] })
  else s.aqPush n ⟨v.tick, v.full, 0, .record m.bits⟩

/-- The stream stops: its last record is written (R242, R243). -/
def State.aqFinish (s : State) (n : Nat) : State :=
  (s.aqFlush n).modAcq n (fun a =>
    { a with run := false, stopAt := none, winEnd := none, holdEnd := none, maskFrom := none, hist := [], codes := [],
             marks := [], first := none })

/-- A stop whose sample has come is done. -/
def State.aqSettle (s : State) (n : Nat) : State :=
  s.iff ((s.acq n).run && (s.acq n).stopAt.any (fun p => decide (p ≤ 30 * s.now))) (fun s => s.aqFinish n)

/-! Trigger units (R247–R251) -/

def RxPort.unit (x : RxPort) (u : Nat) : TrigUnit := tget (fun _ => {}) x.units u
def State.setUnitOf (s : State) (n u : Nat) (y : TrigUnit) : State :=
  s.modRx n (fun x => { x with units := tset (fun _ => {}) x.units u y })

/-- Fields of a unit's configuration. -/
def TrigUnit.seqKind (y : TrigUnit) : Bool := bit y.cfg 31
def TrigUnit.falling (y : TrigUnit) : Bool := bit y.cfg 30
def TrigUnit.auto (y : TrigUnit) : Bool := bit y.cfg 27

/-- A unit is armed from a position on, with its registers as they stand (R247). -/
def State.armUnit (s : State) (n u pos : Nat) : State :=
  s.setUnitOf n u
    { armed := true, from_ := pos, cfg := s.rd (rxA n (0x4300 + 16 * u)), level := (s.rd (rxA n (0x4304 + 16 * u))).toInt,
      hyst := (s.rd (rxA n (0x4308 + 16 * u))).toNat }

/-- A unit that awaited re-arming is armed again: an arming like any other (R250, R251). -/
def TrigUnit.rearm (y : TrigUnit) (sidx : Nat) : TrigUnit :=
  if y.awaiting then { y with armed := true, awaiting := false, lvl := none, state := 0, t := 0, c := 0, armIdx := some sidx } else y

/-- R248: the level state after a value, and whether the unit fires. -/
def TrigUnit.edgeStep (y : TrigUnit) (v : Int) : TrigUnit × Bool :=
  let nw : Option Bool :=
    if y.falling then (if y.level + y.hyst < v then some true else if v ≤ y.level then some false else y.lvl)
    else (if y.level ≤ v then some true else if v < y.level - y.hyst then some false else y.lvl)
  ({ y with lvl := nw }, if y.falling then y.lvl = some true && nw = some false else y.lvl = some false && nw = some true)

/-- Word w of the sequence table of unit u, `e` naming a word that reads 0. -/
def State.seqWord (s : State) (n u w : Nat) (e : TabEcc) : Word64 :=
  if e.seq ∧ e.ecc = .ue ∧ e.word.toNat = 16 * u + w then 0 else s.tab (tabKey n 6 (16 * u + w))

/-- R249: one sample of a sequence unit: the state after it, and the state that fired. -/
def State.seqStep (s : State) (n u : Nat) (y : TrigUnit) (v : Int) (e : TabEcc) : TrigUnit × Option Nat :=
  let w0 := s.seqWord n u (2 * y.state) e
  let w1 := s.seqWord n u (2 * y.state + 1) e
  let lev := (BitVec.ofNat 32 (fld w0 32 32)).toInt
  let cond := fld w0 30 2
  let holds : Bool := if cond = 0 then decide (lev ≤ v) else if cond = 1 then decide (v < lev) else true
  let t := y.t + 1
  if fld w1 0 24 ≠ 0 ∧ fld w1 0 24 < t then ({ y with state := fld w0 23 3, t := 0, c := 0 }, none)
  else if fld w1 24 24 < t ∧ holds then
    if y.c + 1 = fld w1 48 16 + 1 then
      (if bit w0 29 then ({ y with state := 0, t := 0, c := 0 }, some y.state)
       else ({ y with state := fld w0 26 3, t := 0, c := 0 }, none))
    else ({ y with t := t, c := y.c + 1 }, none)
  else ({ y with t := t }, none)

/-- One unit sees a stream sample: the unit after it, and the CODE of a firing. -/
def State.unitStep (s : State) (n u : Nat) (v : SSample) (pos : Nat) (e : TabEcc) : TrigUnit × Option Nat :=
  let y := (s.rx n).unit u
  if pos < y.from_ then (y, none)
  else
    let y := if y.armed ∧ y.armIdx.isNone then { y with armIdx := some v.sidx } else y
    let x : Int := if fld y.cfg 28 2 = 1 then v.q else v.i
    if y.seqKind then s.seqStep n u y x e
    else
      let (y, f) := y.edgeStep x
      (y, if f then some 0 else none)

/-- H (R250). -/
def Acq.holdLen (a : Acq) : Nat :=
  max a.hold (max (if bit a.cfg 31 then a.post else 0) (if bit a.cfg 23 then 4096 * 2 ^ fld a.cfg 20 3 - 1 else 0))

/-- Unit u fired at a sample outside holdoff: its mark, and how far its window reaches back (R250, R251). -/
def State.fireUnit (s : State) (n u code : Nat) (v : SSample) : State × Nat :=
  let y := (s.rx n).unit u
  let a := s.acq n
  let h := v.sidx - y.armIdx.getD v.sidx
  let pre := min a.pre h
  let s := s.setUnitOf n u { y with armed := false, awaiting := y.auto }
  (s.aqMark n ⟨v.sidx, u, markBits u (decide (h < a.pre)) v code pre⟩ v true, pre)

/-- The units see a sample (R247, R250). The answer is the reach of the window that starts, where one does. -/
def State.unitsStep (s : State) (n : Nat) (v : SSample) (pos : Nat) (e : TabEcc) : State × Option Nat :=
  let holding := (s.acq n).holdEnd.isSome
  (List.range 4).foldl (fun (r : State × Option Nat) u =>
    let (s, w) := r
    let (y, f) := s.unitStep n u v pos e
    let s := s.setUnitOf n u y
    match f with
    | none => (s, w)
    | some code =>
      if !y.armed ∧ !y.awaiting then (s, w)
      else if holding then (s.count (rxA n 0x4018) (rxA n 0x4004) 28, w)
      else if y.armed then
        let (s, p) := s.fireUnit n u code v
        (s, some (max p (w.getD 0)))
      else (s, w)) (s, none)

/-- The end of a holdoff (R250). -/
def State.holdoffOver (s : State) (n : Nat) (v : SSample) : State :=
  if (s.acq n).holdEnd.any (fun h => decide (h < v.sidx)) then
    let any := (List.range 4).any (fun u => ((s.rx n).unit u).awaiting)
    let s := s.each (List.range 4) (fun s u => s.setUnitOf n u (((s.rx n).unit u).rearm v.sidx))
    (s.iff any (fun s => s.count (rxA n 0x401C) (rxA n 0x4004) 27)).modAcq n (fun a => { a with holdEnd := none })
  else s

/-- The mask entry that a sample violates, where a test runs (R252). -/
def State.maskHit (s : State) (n : Nat) (v : SSample) (e : TabEcc) : Option Nat :=
  let a := s.acq n
  match a.maskFrom with
  | none => none
  | some m =>
    let i := (v.sidx - m) / 2 ^ fld a.cfg 20 3
    if 4096 ≤ i then none
    else
      let w := if !e.seq ∧ e.ecc = .ue ∧ e.word.toNat = i then 0 else s.tab (tabKey n 5 i)
      if (BitVec.ofNat 32 (fld w 32 32)).toInt < v.i ∨ v.i < (BitVec.ofNat 32 (fld w 0 32)).toInt then some i else none

/-- A stream sample, its first input sample at `pos` (R242–R252). -/
def State.aqSample (s : State) (n : Nat) (v : SSample) (pos : Nat) (e : TabEcc) : State :=
  let s := s.holdoffOver n v
  let window := bit (s.acq n).cfg 31
  let due := (s.acq n).codes.filter (fun c => decide (c.1 ≤ pos))
  let s := s.modAcq n (fun a => { a with codes := a.codes.filter (fun c => !decide (c.1 ≤ pos)) })
  let held := !window || (s.acq n).winEnd.isSome
  let s := s.each due (fun s c => s.aqMark n ⟨v.sidx, 4, markBits 4 false v c.2.toNat 0⟩ v held)
  let (s, fired) := s.unitsStep n v pos e
  let s := match fired with
    | none => s
    | some reach =>
      let pre := ((s.acq n).hist.take reach).reverse
      let s := s.modAcq n (fun a =>
        { a with holdEnd := some (v.sidx + a.holdLen), maskFrom := if bit a.cfg 23 then some v.sidx else none,
                 winEnd := if window then some (v.sidx + a.post) else none })
      s.iff window (fun s => s.each pre (fun s x => s.aqAdd n x))
  let s := s.modAcq n (fun a => { a with hist := if window then (v :: a.hist).take a.pre else [] })
  let writes := !window || (s.acq n).winEnd.isSome
  match s.maskHit n v e with
  | some c =>
    let s := s.aqMark n ⟨v.sidx, 5, markBits 5 false v c 0⟩ v writes
    ((s.iff writes (fun s => s.aqAdd n v)).aqFinish n).put (rxA n 0x4004) 8 true
  | none =>
    let s := s.iff writes (fun s => s.aqAdd n v)
    s.iff ((s.acq n).winEnd == some v.sidx) (fun s => (s.aqFlush n).modAcq n (fun a => { a with winEnd := none }))

/-- One ADC sample of the running stream (R242). -/
def State.aqInput (s : State) (n : Nat) (x : BitVec 12) (e : TabEcc) : State :=
  let a := s.acq n
  let pos := a.start + a.step * a.inIdx
  if !a.run then s
  else if a.stopAt.any (fun p => decide (p ≤ pos)) then s.aqFinish n
  else
    let s := s.advanceTo (pos / 30)
    let dec := 2 ^ fld a.cfg 24 4
    let i := a.inIdx
    let s := s.modAcq n (fun a => { a with inIdx := i + 1 })
    let here : SSample := ⟨i / dec, x.toInt, 0, pos / 30, s.fullAt (pos / 30), pos % 30⟩
    if !a.demod then (if i % dec = 0 then s.aqSample n here pos e else s)
    else
      let (mr, mi) := s.mixed n (fld a.cfg 28 3) pos x
      let s := s.modAcq n (fun a =>
        if i % dec = 0 then { a with accI := mr, accQ := mi, first := some here }
        else { a with accI := a.accI + mr, accQ := a.accQ + mi })
      if (i + 1) % dec = 0 then
        let a := s.acq n
        let f := a.first.getD here
        s.aqSample n { f with i := (a.accI + 2 ^ 14) / 2 ^ 15, q := (a.accQ + 2 ^ 14) / 2 ^ 15 }
          (a.start + a.step * (i / dec * dec)) e
      else s

/-- The stream takes the ADC samples that follow those it has taken. -/
def State.aqFeed (s : State) (n : Nat) (codes : List (BitVec 12)) (e : TabEcc) : State :=
  ((s.iff (s.acq n).run (fun s => s.tabSeen n e.ecc)).each codes (fun s x => s.aqInput n x e)).aqSettle n

/-- TRIGGER_FIRE: samples in which a unit fires. -/
def execTriggerFire (n : Fin 32) (codes : List (BitVec 12)) (e : TabEcc) (s : State) : Host.Outcome State Fault Refusal :=
  .next (s.aqFeed n.val codes e)

/-- HOLDOFF_END: samples in which a holdoff ends. -/
def execHoldoffEnd (n : Fin 32) (codes : List (BitVec 12)) (e : TabEcc) (s : State) : Host.Outcome State Fault Refusal :=
  .next (s.aqFeed n.val codes e)

/-- MASK_VIOLATION: samples in which the mask is violated. -/
def execMaskViolation (n : Fin 32) (codes : List (BitVec 12)) (e : TabEcc) (s : State) : Host.Outcome State Fault Refusal :=
  .next (s.aqFeed n.val codes e)

/-! The ACQ group and its host commands -/

/-- An ACQ instruction. -/
def acqForm : Form := { grp := 11 }

/-- AQSTART (R242, R245, R251). -/
def opAqstart (n : Nat) (demod : Bool) (c : Fin 8) (s : State) : State :=
  let pos := s.rxNext n
  let s := s.iff ((s.acq n).stopAt.any (fun p => decide (p ≤ pos))) (fun s => s.aqFinish n)
  if (s.acq n).run ∨ s.rdf (rxA n 0x4288) 0 13 = 0 then s.waveCfg n
  else
    let s := s.each (List.range 4) (fun s u => s.setUnitOf n u { (s.rx n).unit u with armIdx := none })
    ((s.modAcq n (fun a =>
      { a with run := true, demod := demod, cfgNum := c, cfg := s.rd (rxA n (0x4200 + 16 * c.val)),
               pre := s.rdf (rxA n (0x4204 + 16 * c.val)) 0 16, post := s.rdf (rxA n (0x4208 + 16 * c.val)) 0 24,
               hold := s.rdf (rxA n (0x420C + 16 * c.val)) 0 24, start := pos, step := s.rxStep, inIdx := 0,
               recent := [], hist := [], marks := [], codes := [] })).aqBeacon n 4 0).calDrop (1312 + n)

def execAqstart (x : Iss) (demod : Bool) (c : Fin 8) (s : State) : Host.Outcome State Fault Refusal :=
  .next (s.issue x acqForm (opAqstart (wavePort x) demod c))

/-- The stream stops at a sample; a stop that already stands earlier stays. -/
def State.aqStopAt (s : State) (n pos : Nat) : State :=
  if (s.acq n).run then s.modAcq n (fun a => { a with stopAt := some (min pos (a.stopAt.getD pos)) }) else s

/-- AQSTOP -/
def execAqstop (x : Iss) (s : State) : Host.Outcome State Fault Refusal :=
  .next (s.issue x acqForm (fun s => s.aqStopAt (wavePort x) (s.rxNext (wavePort x))))

/-- AQARM: an armed unit ignores it and CFG is raised. -/
def execAqarm (x : Iss) (u : Fin 4) (s : State) : Host.Outcome State Fault Refusal :=
  .next (s.issue x acqForm (fun s =>
    let n := wavePort x
    if ((s.rx n).unit u.val).armed then s.waveCfg n else s.armUnit n u.val (s.rxNext n)))

/-- AQMARK (R242, R245). -/
def opAqmark (n : Nat) (code : BitVec 16) (s : State) : State :=
  let s := s.aqSettle n
  if (s.acq n).run then s.modAcq n (fun a => { a with codes := a.codes ++ [(s.rxNext n, code)] }) else s.waveCfg n

def execAqmark (x : Iss) (code : BitVec 16) (s : State) : Host.Outcome State Fault Refusal :=
  .next (s.issue x acqForm (opAqmark (wavePort x) code))

/-- CTRL.ARM: each unit that is not armed is armed (R247). -/
def State.armHost (s : State) (n : Nat) (units : BitVec 4) : State :=
  s.each (List.range 4) (fun s u =>
    if bit units u && !((s.rx n).unit u).armed then s.armUnit n u (s.rxLater n) else s)

def execArm (p : Path) (n : Fin 32) (units : BitVec 4) (s : State) : Host.Outcome State Fault Refusal :=
  .next (s.host p (rxA n.val 0x4000) (fun s => s.armHost n.val units))

/-- CTRL.AQ_STOP -/
def execAqStop (p : Path) (n : Fin 32) (s : State) : Host.Outcome State Fault Refusal :=
  .next (s.host p (rxA n.val 0x4000) (fun s => s.aqStopAt n.val (s.rxLater n.val)))

/-- CTRL.AQ_RING_RESET, accepted only while the stream is stopped (R245, R246). -/
def State.aqRingReset (s : State) (p : Path) (n : Nat) : State :=
  let s := s.aqSettle n
  if (s.acq n).run then s.cfgErr p
  else (((s.wr (rxA n 0x428C) 0).wr (rxA n 0x4290) 0).modAcq n (fun a => { a with q := { a.q with lost := false } })).aqBeacon n 4 0

def execAqRingReset (p : Path) (n : Fin 32) (s : State) : Host.Outcome State Fault Refusal :=
  .next (s.host p (rxA n.val 0x4000) (fun s => s.aqRingReset p n.val))

/-! Registers with rules of their own (R254) -/

/-- A window is open on some tone. -/
def State.winOpen (s : State) (n : Nat) : Bool := (s.rx n).openAt (30 * s.now)

/-- Under HOST a waiting RRES completes 6 ticks later with 0 (R241). -/
def State.rresDrop (s : State) (n : Nat) : State :=
  let ks := (s.rx n).rres
  (s.modEng (64 + n) (fun e => { e with tags := e.tags.map (fun t =>
    if ks.any (fun k => k == t.1) then (t.1, { t.2 with val := some 0, why := .exact (s.now + 6) }) else t) })).modRx n
      (fun x => { x with rres := [] })

/-- A write of RX[n]_CFG. -/
def State.rxCfgSet (s : State) (p : Path) (n : Nat) (v : Word) : State :=
  let a := rxA n 0x4008
  let nyq := bit v 0 != s.tst a 0
  if nyq && (s.winOpen n || (s.aqSettle n |>.acq n).run || (bit v 0 && s.season == 1)) then s.cfgErr p
  else
    let s := s.wr a (v &&& 5)
    if bit v 2 then s.rresDrop n else s.rresNow n

def execRxCfgWrite (p : Path) (n : Fin 32) (v : Word) (s : State) : Host.Outcome State Fault Refusal :=
  .next (s.host p (rxA n.val 0x4008) (fun s => s.rxCfgSet p n.val v))

/-- A write of AQ_SIZE. -/
def State.aqSizeSet (s : State) (p : Path) (n : Nat) (v : Word) : State :=
  let s := s.aqSettle n
  if (s.acq n).run ∨ 4096 < fld v 0 13 then s.cfgErr p else s.wr (rxA n 0x4288) (v &&& 0x80001FFF)

def execAqSizeWrite (p : Path) (n : Fin 32) (v : Word) (s : State) : Host.Outcome State Fault Refusal :=
  .next (s.host p (rxA n.val 0x4288) (fun s => s.aqSizeSet p n.val v))

/-- A write of a stream register, refused while the stream runs. -/
def State.aqRegSet (s : State) (p : Path) (a n : Nat) (v : Word) : State :=
  let s := s.aqSettle n
  if (s.acq n).run then s.cfgErr p else s.wr a v

/-- A write of TRIG[u], refused while unit u is armed or awaits re-arming; SRC has two values. -/
def State.trigSet (s : State) (p : Path) (n u r : Nat) (v : Word) : State :=
  let y := (s.rx n).unit u
  if y.armed ∨ y.awaiting ∨ (r = 0 ∧ 1 < fld v 28 2) then s.cfgErr p
  else s.wr (rxA n (0x4300 + 16 * u + 4 * r)) (if r = 0 then v &&& 0xF8000000 else v)

/-! ACQ_RECORD_WRITE (R184, R246) -/

/-- The next position's address, and whether it lies in a stack that is off (R328). -/
def State.aqNext (s : State) (n : Nat) : Nat := s.aqBase n + 32 * (s.rd (rxA n 0x428C)).toNat
def State.aqOff (s : State) (n : Nat) : Bool :=
  !s.aqHost n && (decide (2 ^ 36 < s.aqNext n + 32) || !s.stackOn (stackOf (s.aqNext n)))

/-- A record at the next position of the stream's ring: in HBM, or on its way to the host. -/
def State.aqPlace (s : State) (n : Nat) (r : BitVec 256) : State :=
  let w := (s.rd (rxA n 0x428C)).toNat
  let a := s.aqNext n
  let s := if s.aqHost n then s.emit (.hostWrite a (recBytes r)) else s.hbmPut a (recBytes r)
  s.wr (rxA n 0x428C) (BitVec.ofNat 32 ((w + 1) % max 1 (s.aqN n)))

/-- The stream as a whole. -/
def State.modStream (s : State) (n : Nat) (f : Stream → Stream) : State := s.modAcq n (fun a => { a with q := f a.q })

/-- The next record of the queue reaches its position: after a loss a RESUME beacon goes first (R48, R184). -/
def opAcqRecordWrite (n : Nat) (s : State) : State :=
  let s := s.aqSettle n
  let q := (s.acq n).q
  if s.aqN n = 0 then s
  else if q.lost ∧ !s.aqFull n ∧ !s.aqOff n then
    let (b, q) := q.beacon 5 s.full 0
    (s.modStream n (fun _ => { q with lost := false })).aqPlace n b
  else
    match q.q with
    | [] => s
    | r :: t =>
      let s := s.modStream n (fun q => { q with q := t })
      if s.aqFull n ∨ s.aqOff n then s.aqLose n false
      else
        match r.body with
        | .record b => (s.modStream n (fun q => q.counted)).aqPlace n b
        | .beacon why full prior =>
          let (b, q) := q.beacon why full prior
          (s.modStream n (fun _ => { q with q := t })).aqPlace n b

def execAcqRecordWrite (n : Fin 32) (s : State) : Host.Outcome State Fault Refusal := .next (opAcqRecordWrite n.val s)

/-- RX_ADC_OVERRANGE (R253): a tick holds an over-range code. -/
def execRxAdcOverrange (n : Fin 32) (s : State) : Host.Outcome State Fault Refusal :=
  .next ((s.count (rxA n.val 0x400C) (rxA n.val 0x4004) 31).put (rxA n.val 0x4004) 3 true)

/-- R253: RX[n] stops: open windows close without a word, the stream stops, every unit is disarmed. -/
def State.rxStop (s : State) (n : Nat) : State :=
  (s.iff (s.acq n).run (fun s => s.aqFinish n)).modRx n (fun x => { x with wins := [], units := [] })

end Sys2Proof.Machine
end

