-- ==== Sys2Proof/Machine/EngCtl.lean ====
section
/-! DEFINITION. Host control of an engine (R66–R68, R83–R87), tag completions (R73) and words that name no instruction
(R59, R65, R89–R125). -/

namespace Sys2Proof.Machine

/-! START (R21, R85, R111, R137, R181, R185, R192, R239, R386, R392) -/

/-- The domain engine e depends on and the DEC domain are on (R21, R275). -/
def State.engDom (s : State) (e : Nat) : Bool :=
  s.dom 23 && (if e < 64 then s.dom (8 + e / 8) else s.dom (16 + (e - 64) / 8))

/-- A START is accepted; not before the boot is done (R364). -/
def State.startOk (s : State) (e : Nat) : Bool :=
  (s.eng e).st = .stopped && s.engDom e && s.tst 0x00C 1 && (s.eng e).hold = 0 && !s.tst (mcsA 0x004) 0
    && (64 ≤ e || s.rdf (peA e 0x1C1C) 8 4 = 0)

/-- What START sets in the engine: every line of the data cache goes (R70); the registers stay. -/
def Eng.started (x : Eng) (pc now : Nat) : Eng :=
  { x with st := .running, wait := .none, pc := pc, lastPc := pc, flags := 0, rs := [], timed := false, slot := 0,
           slotAt := now, slotOff := 0, secLen := 0, atTick := none, gapDone := false, throttled := false,
           stopPend := false, suspPend := false, sigSync := none, sigQ := [], dcache := [] }

/-- What START sets beside a Pattern Engine. -/
def State.startPe (s : State) (n : Nat) : State :=
  let s := (s.bankRelease n).modPe n (fun p =>
    { p with vmask := 0, ffail := 0, ffailNew := 0, vcyc := 0, inflight := [], visRun := none, vcache := [], seen := [], lbuf := none,
             lastTs := none, vbtBase := (s.rd64 (peA n 0x1000)).toNat % 2 ^ 36 / 64 * 64,
             vbtSize := s.rdf (peA n 0x1008) 0 27 })
  let s := s.each (List.range 4) (fun s k => s.wr (peA n (0x1CA0 + 4 * k)) 0)
  s.iff (s.rdf (peA n 0x1C18) 0 2 != 0) (fun s => s.ringBeacon n 4 0)

/-- What START sets at the receive port of a Wave Engine. -/
def State.startWe (s : State) (n : Nat) : State :=
  (s.modRx n (fun x => { x with tagCnt := 0 })).fifoBeacon n 4 0

/-- START; in AUTUMN it is ignored (R351). -/
def opStart (p : Path) (e : Nat) (s : State) : State :=
  if s.season = 3 then s
  else if s.startOk e then
    let s := s.modEng e (fun x => x.started (s.rdf (engA e 0x008) 0 14) s.now)
    if e < 64 then s.startPe e else s.startWe (e - 64)
  else s.cfgErr p

def execStart (p : Path) (e : Fin 96) (s : State) : Host.Outcome State Fault Refusal :=
  .next (s.host p (engA e.val 0x000) (opStart p e.val))

/-! The other commands (R85) -/

/-- A stop at the next boundary, with the reason it will record: STOP, and AUTUMN's (R351). -/
def State.stopFor (s : State) (e reason : Nat) : State :=
  let x := s.eng e
  if x.st = .suspended ∨ x.st = .sigWait then s.engStop e reason (s.stopAddr e)
  else if x.st = .running then
    (if x.timed ∨ s.midIssue e then s.setEng e { x with stopPend := true, stopReason := reason }
     else s.engStop e reason (s.stopAddr e))
  else s

/-- STOP -/
def opStop (e : Nat) (s : State) : State := s.stopFor e 2

def execStop (p : Path) (e : Fin 96) (s : State) : Host.Outcome State Fault Refusal :=
  .next (s.host p (engA e.val 0x000) (opStop e.val))

/-- STOP_NOW -/
def execStopNow (p : Path) (e : Fin 96) (s : State) : Host.Outcome State Fault Refusal :=
  .next (s.host p (engA e.val 0x000) (fun s => s.engStopReq e.val 3))

/-- SUSPEND. A throttling gap is given up: the AT or TBEGIN has not issued. -/
def opSuspend (e : Nat) (s : State) : State :=
  let x := s.eng e
  let susp (r : EngSt) : State :=
    s.setEng e { x with st := .suspended, resumeTo := r, suspPend := false,
                        wait := match x.wait with | .gap _ => .none | w => w,
                        throttled := match x.wait with | .gap _ => false | _ => x.throttled }
  if x.st = .sigWait then susp .sigWait
  else if x.st = .running then
    (if x.timed ∨ s.midIssue e then s.setEng e { x with suspPend := true } else susp .running)
  else s

def execSuspend (p : Path) (e : Fin 96) (s : State) : Host.Outcome State Fault Refusal :=
  .next (s.host p (engA e.val 0x000) (opSuspend e.val))

/-- RESUME: a pending AT is judged again (R46), and a verdict that has become visible is read. -/
def opResume (e : Nat) (s : State) : State :=
  let x := s.eng e
  if x.st ≠ .suspended then s
  else
    let s := s.setEng e { x with st := x.resumeTo }
    match x.wait with
    | .atTarget t pair => if x.resumeTo = .running then s.judgeAt e t pair else s
    | .verdict _ _ => s.wakeWaits
    | _ => s

def execResume (p : Path) (e : Fin 96) (s : State) : Host.Outcome State Fault Refusal :=
  .next (s.host p (engA e.val 0x000) (opResume e.val))

/-- CONT: the synchronous place is emptied (R87). -/
def opCont (e : Nat) (s : State) : State :=
  let x := s.eng e
  if x.st = .sigWait then s.setEng e { x with st := .running, sigSync := none } else s

def execCont (p : Path) (e : Fin 96) (s : State) : Host.Outcome State Fault Refusal :=
  .next (s.host p (engA e.val 0x000) (opCont e.val))

/-- A write of CTRL performs the highest command set (R86). -/
def State.engCtrl (s : State) (p : Path) (e : Nat) (v : Word) : State :=
  if bit v 5 then s.engStopReq e 3 else if bit v 4 then opStop e s else if bit v 3 then opSuspend e s
  else if bit v 2 then opResume e s else if bit v 1 then opCont e s else if bit v 0 then opStart p e s else s

/-- ENGINE_STOPPED: no tag is busy (R86). -/
def opEngineStopped (e : Nat) (s : State) : State :=
  let x := s.eng e
  if x.st = .stopping ∧ x.tags = [] then (s.setEng e { x with st := .stopped }).engIrq e 2 else s

def execEngineStopped (e : Fin 96) (s : State) : Host.Outcome State Fault Refusal := .next (opEngineStopped e.val s)

/-! Reads (R83, R87) -/

/-- STAT. An engine that is suspended does not wait; STOP_PEND and SUSPEND_PEND stand for a TEND to come. -/
def State.engStat (s : State) (e : Nat) : Word :=
  let x := s.eng e
  let code : Nat := match x.st with
    | .stopped => 0 | .running => 1 | .suspended => 2 | .sigWait => 3 | .stopping => 4
  let waiting : Bool := match x.wait with
    | .none => false
    | _ => x.st = .running
  (s.rd (engA e 0x004) &&& 0xE0000) ||| BitVec.ofNat 32 ((bit x.flags 0).toNat * 2 ^ 16 + x.sigQ.length * 2 ^ 8
    + waiting.toNat * 2 ^ 7 + x.timed.toNat * 2 ^ 6 + (x.timed && x.stopPend).toNat * 2 ^ 5 + (x.timed && x.suspPend).toNat * 2 ^ 4 + code)

/-- A write of STAT: LATE is the FLAGS bit. -/
def State.engStatSet (s : State) (e : Nat) (v : Word) : State :=
  (s.wr (engA e 0x004) (s.rd (engA e 0x004) &&& ~~~(v &&& 0xE0000))).modEng e (fun x =>
    { x with flags := if bit v 16 then setb x.flags 0 false else x.flags })

/-- PC -/
def State.engPc (s : State) (e : Nat) : Word :=
  let x := s.eng e
  let a := if x.st = .stopped ∨ x.st = .suspended ∨ x.st = .sigWait then (s.stopAddr e) else x.lastPc
  BitVec.ofNat 32 (a % 2 ^ 14)

/-- SIG_CODE: the code at the head, popped (R87). -/
def State.sigRead (s : State) (e : Nat) : Word × State :=
  let x := s.eng e
  match x.sigSync, x.sigQ with
  | some c, _ => (BitVec.ofNat 32 (2 ^ 31 + 2 ^ 16 + c.toNat), s.setEng e { x with sigSync := none })
  | none, c :: t => (BitVec.ofNat 32 (2 ^ 31 + c.toNat), s.setEng e { x with sigQ := t })
  | none, [] => (0, s)

def execSigCodeRead (p : Path) (e : Fin 96) (s : State) : Host.Outcome State Fault Refusal :=
  .next (s.hostRead p (engA e.val 0x014) (fun s => s.sigRead e.val))

/-! The register-file images (R83) -/

/-- The images may be accessed. -/
def State.imageOk (s : State) (e : Nat) : Bool := (s.eng e).st = .stopped || (s.eng e).st = .suspended

/-- What an image at an offset reads. -/
def State.imageGet (s : State) (e o : Nat) : Word64 :=
  let x := s.eng e
  if o < 0x200 then x.reg (Fin.ofNat 32 ((o - 0x100) / 8))
  else if o < 0x220 then (x.ctr (Fin.ofNat 8 ((o - 0x200) / 4))).zeroExtend 64
  else if o = 0x220 then (x.preds ||| 1).zeroExtend 64
  else if o = 0x224 then x.flags.zeroExtend 64
  else if o < 0x250 then (x.axr (Fin.ofNat 4 ((o - 0x240) / 4))).zeroExtend 64
  else if o < 0x260 then (x.ayr (Fin.ofNat 4 ((o - 0x250) / 4))).zeroExtend 64
  else x.adr (Fin.ofNat 4 ((o - 0x260) / 8))

/-- An image that is a 64-bit pair. -/
def imagePair (o : Nat) : Bool := decide (o < 0x200) || decide (0x260 ≤ o)

/-- An image written whole. -/
def State.imageSet (s : State) (e o : Nat) (v : Word64) : State :=
  s.modEng e (fun x =>
    if o < 0x200 then x.setReg (Fin.ofNat 32 ((o - 0x100) / 8)) v
    else if o < 0x220 then x.setCtr (Fin.ofNat 8 ((o - 0x200) / 4)) (loHalf v)
    else if o = 0x220 then { x with preds := v.truncate 8 ||| 1 }
    else if o = 0x224 then { x with flags := v.truncate 3 }
    else if o < 0x250 then x.setAx (Fin.ofNat 4 ((o - 0x240) / 4)) (v.truncate 24)
    else if o < 0x260 then x.setAy (Fin.ofNat 4 ((o - 0x250) / 4)) (v.truncate 24)
    else x.setAd (Fin.ofNat 4 ((o - 0x260) / 8)) v)

/-- A read of an image; a _LO read latches the high half (R11). On a WE, 0x240–0x27C read 0. -/
def State.imageRead (s : State) (p : Path) (e o : Nat) : Word × State :=
  if 64 ≤ e ∧ 0x240 ≤ o then (0, s)
  else if !s.imageOk e then (0, s.cfgErr p)
  else if imagePair o ∧ o % 8 = 4 then (s.getLatch p, s)
  else
    let v := s.imageGet e o
    (loHalf v, s.iff (imagePair o) (fun s => s.setLatch p (hiHalf v)))

/-- A write of an image; a _LO write is held (R12). -/
def State.imageWrite (s : State) (p : Path) (e o : Nat) (v : Word) : State :=
  if 64 ≤ e ∧ 0x240 ≤ o then s
  else if !s.imageOk e then s.cfgErr p
  else if imagePair o then
    (if o % 8 = 0 then s.holdLo p (engA e o) (some v)
     else
       let lo := (s.heldLo p (engA e (o - 4))).getD (loHalf (s.imageGet e (o - 4)))
       (s.imageSet e (o - 4) (join64 v lo)).holdLo p (engA e (o - 4)) none)
  else s.imageSet e o (v.zeroExtend 64)

/-! Local memory (R67, R68) -/

/-- A write of a word of an engine's local memory; IMEM only while the engine is STOPPED. -/
def State.memSet (s : State) (p : Path) (e o : Nat) (v : Word) : State :=
  if o < 0x20000 ∧ (s.eng e).st ≠ .stopped then s.cfgErr p else s.wr (memA e o) v

/-- LOCAL_MEMORY_WRITE: word `w` of the window. -/
def execLocalMemoryWrite (p : Path) (e : Fin 96) (w : BitVec 16) (v : Word) (s : State) :
    Host.Outcome State Fault Refusal :=
  .next (s.host p (memA e.val (4 * w.toNat)) (fun s => s.memSet p e.val (4 * w.toNat) v))

/-! Tags (R73) -/

/-- TAG_WRITEBACK: an operation of exact latency writes back in its tick, any other one once its value is known. -/
def opTagWriteback (e tag : Nat) (s : State) : State :=
  match (s.eng e).tag? tag with
  | some ⟨_, some v, .exact t⟩ => (s.advanceTo t).modEng e (fun y => y.done tag v)
  | some ⟨_, some v, .average⟩ => s.modEng e (fun y => y.done tag v)
  | some ⟨_, some v, .rres⟩ => s.modEng e (fun y => y.done tag v)
  | _ => s

def execTagWriteback (e : Fin 96) (tag : Fin 16) (s : State) : Host.Outcome State Fault Refusal :=
  .next (opTagWriteback e.val tag.val s)

/-! Issue past the last word (R66) -/

/-- ISSUE_PAST_END -/
def opIssuePastEnd (e : Nat) (s : State) : State :=
  let r := s.vecWait e
  let x := r.eng e
  if x.st = .running ∧ x.wait = .none ∧ 16384 ≤ x.pc ∧ (r.visOf e).isNone then
    let t := r.advanceTo (if x.timed then r.slotTick e else x.slotAt)
    (t.engFault e clsIllegal 2).engStop e 4 0x3FFF true
  else s

def execIssuePastEnd (e : Fin 96) (s : State) : Host.Outcome State Fault Refusal := .next (opIssuePastEnd e.val s)

/-! Words that name no instruction -/

/-- The operand bits, as (lowest bit, count), that the row of a group and OP value names; `none` where R125 defines no
such row. -/
def fieldsOf (g op : Nat) : Option (List (Nat × Nat)) :=
  match g with
  | 0 =>
    if op = 0 ∨ op = 3 then some [(0, 32)] else if op = 1 then some [(45, 5), (32, 8), (0, 32)]
    else if op = 2 then some [(40, 3), (0, 32)] else if op = 4 ∨ op = 5 then some [(45, 5)] else if op = 6 then some []
    else if op = 8 then some [(45, 3), (40, 5), (36, 2), (0, 32)] else if op = 9 then some [(45, 5), (40, 3)] else none
  | 1 =>
    if op ≤ 0x10 then some [(45, 5), (40, 5), (35, 5)] else if op ≤ 0x12 then some [(45, 5), (40, 5)]
    else if op ≤ 0x14 then some [(45, 5), (40, 5), (0, 6), (8, 6)]
    else if 0x20 ≤ op ∧ op ≤ 0x30 then some [(45, 5), (40, 5), (36, 2), (0, 32)]
    else if op = 0x38 then some [(45, 3), (40, 5), (35, 5), (32, 3)]
    else if op = 0x39 then some [(45, 3), (40, 5), (36, 2), (32, 3), (0, 32)]
    else if op = 0x3A then some [(45, 3), (40, 3), (35, 3), (32, 3)]
    else if op = 0x3B then some [(45, 5), (40, 5), (35, 5), (32, 3)]
    else if op = 0x3C then some [(45, 5), (40, 5), (32, 1), (0, 8)]
    else if op = 0x3D then some [(45, 5), (40, 5), (0, 32)] else none
  | 2 =>
    if op ≤ 6 ∨ op = 0x0A then some [(45, 5), (40, 5), (35, 5)]
    else if op ≤ 9 ∨ op = 0x0C ∨ op = 0x0D then some [(45, 5), (40, 5)]
    else if op = 0x0B then some [(45, 5), (40, 5), (0, 6)]
    else if op = 0x20 ∨ (0x22 ≤ op ∧ op ≤ 0x24) then some [(45, 5), (40, 5), (36, 2), (0, 32)] else none
  | 3 =>
    if op = 0 ∨ op = 2 then some [(45, 5), (40, 5), (36, 2), (0, 32)] else if op = 1 then some [(40, 5), (35, 5), (0, 32)]
    else if op = 3 then some [(45, 5), (40, 5), (35, 5), (0, 32)] else none
  | 4 =>
    if op = 0 then some [(48, 2), (0, 48)] else if op = 1 then some [(0, 6)] else if op = 2 then some []
    else if op = 8 then some [(45, 5), (40, 5), (32, 2), (0, 8)] else if op = 9 then some [(45, 5), (40, 5), (32, 2), (0, 6)]
    else if op = 0x0A then some [(45, 5), (40, 5), (32, 1)] else if op = 0x0B then some [(45, 5), (40, 5)]
    else if op = 0x0C then some [(45, 5), (32, 2), (0, 32)] else none
  | 5 =>
    if op ≤ 1 then some [(0, 50)] else if op = 2 then some [(32, 4), (0, 32)] else if op = 3 then some [(40, 5)]
    else if op = 4 then some [(40, 5), (32, 1), (0, 16)] else none
  | 6 =>
    if op ≤ 2 then some [(45, 2), (40, 5), (36, 2), (32, 1), (0, 32)] else if op = 3 then some [(45, 2), (35, 3), (32, 3)]
    else if op = 4 then some [(45, 2), (40, 2), (35, 3)] else if op = 5 then some [(45, 2), (40, 2), (32, 3), (0, 2)]
    else if op = 6 then some [(45, 2), (40, 2)] else if op = 7 then some [(45, 5), (40, 2), (32, 3)] else none
  | 7 =>
    if op = 0 then some [(0, 7), (8, 3)] else if op = 1 then some [(45, 5), (0, 5)]
    else if op = 2 then some [(40, 5), (32, 2), (0, 3)] else if op = 3 ∨ op = 6 then some [(45, 5), (0, 1)]
    else if op = 4 then some [(45, 5), (0, 5)] else if op = 5 then some [(0, 1)] else none
  | 8 =>
    if op = 0 then some [(40, 5), (32, 2), (0, 9), (16, 16)] else if op = 1 then some [(0, 6)]
    else if op = 2 then some [(45, 5), (0, 4), (5, 4)] else none
  | 9 =>
    if op = 0 then some [(40, 10), (32, 1)] else if op = 1 then some [(40, 10)] else if op = 2 then some [(32, 1)]
    else if op = 3 then some [] else if op = 4 then some [(40, 3), (32, 2), (0, 32)] else if op = 5 then some [(0, 12)]
    else none
  | 0xA => if op = 0 then some [(40, 3), (0, 11)] else if op = 1 then some [(45, 5)] else none
  | 0xB =>
    if op = 0 then some [(32, 1), (0, 3)] else if op = 1 then some [] else if op = 2 then some [(0, 2)]
    else if op = 3 then some [(0, 16)] else none
  | 0xC =>
    if op = 0 then some [(45, 5), (40, 5), (32, 3), (2, 14)] else if op = 1 then some [(32, 1), (0, 16)]
    else if op = 2 then some [(32, 1)] else if op = 3 then some [(45, 5), (40, 5), (0, 6)] else if op = 4 then some []
    else none
  | _ => none

/-- R107: the block and offset of a CSR that engine e may name. -/
def csrOk (e blk off : Nat) (wr : Bool) : Bool :=
  if blk = 0 then decide (e < 64) && decide (0x1000 ≤ off)
  else if blk = 1 then decide (off < if e < 64 then 0x4000 else 0x8000)
  else blk = 2 && !wr

/-- The reserved values and the bits reserved by another field of a row (R94, R97, R98, R103, R107, R114–R116, R119, R122,
R124). -/
def operandsOk (e g op : Nat) (w : Word64) : Bool :=
  match g, op with
  | 0, 1 => brcOk (BitVec.ofNat 8 (fld w 32 8))
  | 1, 0x3A => decide (fld w 32 3 ≤ 4)
  | 1, 0x3C => if bit w 32 then fld w 45 5 = 0 else fld w 40 5 = 0
  | 4, 0 => if fld w 48 2 = 2 then fld w 5 43 = 0 else decide (fld w 48 2 ≠ 3)
  | 4, 1 => decide (e < 64) || fld w 0 6 = 0
  | 4, 8 | 4, 9 => !bit w 32 || fld w 40 5 = 0
  | 5, 0 | 5, 1 =>
    if fld w 26 2 = 1 then fld w 2 24 = 0 else if fld w 26 2 = 2 then fld w 5 21 = 0
    else if fld w 26 2 = 3 then fld w 0 26 = 0 else true
  | 6, 3 | 6, 5 => decide (fld w 32 3 ≤ 4)
  | 6, 7 => decide (fld w 32 3 ≤ 2)
  | 7, 0 => decide (fld w 4 3 ≤ 4) && decide (fld w 8 3 ≤ 4)
  | 7, 2 => decide (fld w 32 2 ≤ 2) && decide (fld w 0 3 ≤ 5)
  | 8, 0 => decide (fld w 5 4 ≤ 8) && (!bit w 4 || fld w 0 4 = 0) && (bit w 32 || fld w 16 16 = 0)
  | 8, 1 => !bit w 4 || fld w 0 4 = 0
  | 8, 2 => decide (fld w 5 4 ≤ 8)
  | 9, 4 => !bit w 32 || fld w 16 16 = 0
  | 0xA, 0 => !bit w 8 || fld w 6 2 = 0
  | 0xC, 0 => csrOk e (fld w 33 2) (fld w 2 14 * 4) (bit w 32)
  | _, _ => true

/-- The bits of [49:0] outside the named fields are 0. -/
def reservedZero (w : Word64) (fs : List (Nat × Nat)) : Bool :=
  fs.foldl (fun (v : Word64) f => v &&& ~~~(maskAt 64 f.1 f.2)) (w &&& maskAt 64 0 50) = 0

/-- The word names an instruction of engine e (R59, R65, R89). -/
def wordOk (e : Nat) (w : Word64) : Bool :=
  match fieldsOf (fld w 60 4) (fld w 54 6) with
  | none => false
  | some fs => accepts e (fld w 60 4) && reservedZero w fs && operandsOk e (fld w 60 4) (fld w 54 6) w

/-- UNDEFINED_INSTRUCTION: a fetched word that names no instruction raises ILLEGAL, whatever its predicate. -/
def opUndefined (e : Nat) (w : Word64) (s : State) : State :=
  let r := s.vecWait e
  if !r.ready e ∨ wordOk e w then s
  else
    let t := r.advanceTo (if (r.eng e).timed then r.slotTick e else (r.eng e).slotAt)
    t.illegal e (t.eng e).pc

def execUndefinedInstruction (e : Fin 96) (w : Word64) (s : State) : Host.Outcome State Fault Refusal :=
  .next (opUndefined e.val w s)

end Sys2Proof.Machine
end

