-- ==== Sys2Proof/Machine/PatternCmd.lean ====
section
/-! DEFINITION. The Vector Fetch Unit, starve cycles, the Pattern Engine's registers and the read of a period's record
(R137–R151, R322, R323). -/

namespace Sys2Proof.Machine

/-! The vector cache (R137, R140, R141) -/

/-- Vectors fetched and not yet issued, in bytes. -/
def Pe.aheadBytes (p : Pe) : Nat := vecBytes (p.vcache.filter (fun v => v.ahead))

/-- A vector joins the cache of 448 KiB; vectors already issued make room, oldest first. One that finds it full of vectors
not yet issued is not fetched. -/
def Pe.cacheAdd (p : Pe) (v : CVec) : Pe :=
  let rest := p.vcache.filter (fun w => !(w.index = v.index && w.num = v.num))
  let old := rest.filter (fun w => !w.ahead)
  let new := rest.filter (fun w => w.ahead)
  let room := 448 * 1024 - 8 * v.uis.length
  if room < vecBytes new then p
  else { p with vcache := (old.drop ((List.range old.length).countP (fun k => decide (room < vecBytes new + vecBytes (old.drop k))))) ++ new ++ [v] }

/-- Vector i of a block as HBM gives it: uncorrectable where the code says so or the stack is off (R141, R328). -/
def State.fetchVec (s : State) (n : Nat) (index : BitVec 26) (i : Nat) (ecc : HbmEcc) : State :=
  let e := s.vbt n index.toNat
  let u := vbtUi e
  let a := vbtAddr e + 8 * u * i
  if 2 ^ 36 < a + 8 * u then s
  else if !s.stackOn (stackOf a) then s.modPe n (fun p => p.cacheAdd ⟨index, i, List.replicate u 0, true, true⟩)
  else
    let (v, s) := s.hbmRead a ecc
    let uis := (v :: (List.range (u - 1)).map (fun j => s.hbmW (a + 8 * (j + 1))))
    s.modPe n (fun p => p.cacheAdd ⟨index, i, uis, isUe ecc, true⟩)

/-- The table entry of a block read, `cnt` = 0: an uncorrectable one, or one in a stack that is off, is marked (R141). -/
def State.fetchEntry (s : State) (n : Nat) (index : BitVec 26) (ecc : HbmEcc) : State :=
  let a := (s.pe n).vbtBase + 16 * index.toNat
  let off := !s.stackOn (stackOf a)
  let s := if off then s else (s.hbmRead a ecc).2
  s.iff (off || isUe ecc) (fun s => s.modPe n (fun p => p.cacheAdd ⟨index, 65536, [], true, true⟩))

/-- VECTOR_FETCH: vectors `first` on of a block, `cnt` of them; a vector issue that starves finds its vector at the next
period boundary (R142). -/
def opVectorFetch (n : Nat) (index : BitVec 26) (first cnt : Nat) (ecc : HbmEcc) (s : State) : State :=
  if (s.eng n).st = .stopped ∨ (s.pe n).vbtSize ≤ index.toNat then s
  else if cnt = 0 then s.fetchEntry n index ecc
  else
    let len := vbtLen (s.vbt n index.toNat)
    (s.each ((List.range cnt).filter (fun i => decide (first + i < len))) (fun s i =>
      s.fetchVec n index (first + i) (if i = 0 then ecc else .ok))).vecOn n

def execVectorFetch (n : Fin 64) (index : BitVec 26) (first cnt : BitVec 16) (ecc : HbmEcc) (s : State) :
    Host.Outcome State Fault Refusal :=
  .next (opVectorFetch n.val index first.toNat cnt.toNat ecc s)

/-! Starve cycles (R142–R145) -/

/-- R144 at the first starve cycle: sites are INVALID, or aborted. -/
def State.siteAbort (s : State) (n : Nat) : State :=
  let sites := (s.pe n).sites
  if s.tst (peA n 0x1018) 0 then (s.siteRes n sites 3).modPe n (fun p => { p with sites := 0 })
  else s.siteRes n sites 2

/-- One starve cycle of a run of them. -/
def State.starveOne (s : State) (n : Nat) (q : VisRun) : State :=
  let per := s.period n q.ts.toNat
  let s := (s.applyVec n (s.uis n q.ts.toNat) 1 (s.starveVec n) (s.eng n).slotAt per).count (peA n 0x101C) (peA n 0x1018) 31
  let s := s.put (engA n 0x004) 17 true
  let s := if q.starving then s else (s.engFault n clsStream 0).siteAbort n
  (s.modEng n (fun e => { e with ts := q.ts, slotAt := e.slotAt + per, secLen := if e.timed then e.secLen + per else e.secLen })).modPe
    n (fun p => { p with visRun := some { q with starving := true } })

/-- STARVE_CYCLE: the vector of the slot at hand is missing and the bank applies its Starve Vector for one period; a
vector that has come meanwhile issues. -/
def opStarveCycle (n : Nat) (s : State) : State :=
  if (s.eng n).st ≠ .running ∨ (s.pe n).visRun.isNone then s
  else
    let s := s.modEng n (fun e => if e.timed then e else { e with slotAt := max e.slotAt s.now })
    let s := (s.advanceTo (s.eng n).slotAt).vecOn n
    match (s.pe n).visRun with
    | some q => if (s.eng n).st = .running ∧ (s.eng n).slotAt ≤ s.now then s.starveOne n q else s
    | none => s

def execStarveCycle (n : Fin 64) (s : State) : Host.Outcome State Fault Refusal := .next (opStarveCycle n.val s)

/-! Registers with rules of their own (R145, R148, R150, R151) -/

/-- STARVE_VEC as a pair. -/
def State.starveSet (s : State) (p : Path) (n : Nat) (v : Word64) : State :=
  if starveOk v then s.wr64 (peA n 0x1010) v else s.cfgErr p

/-- STARVE_VEC_WRITE: a write of the pair. -/
def execStarveVecWrite (p : Path) (n : Fin 64) (v : Word64) (s : State) : Host.Outcome State Fault Refusal :=
  .next (s.host p (peA n.val 0x1014) (fun s => s.starveSet p n.val v))

/-- R150: written while the PE is STOPPED or SUSPENDED. -/
def State.apgSet (s : State) (p : Path) (n a : Nat) (v : Word) (ok : Bool) : State :=
  if s.imageOk n && ok then s.wr a v else s.cfgErr p

/-- R148: byte i of a table word is not refused: SRC at most 47, bit 6 clear. -/
def scrByteOk (v : Word) (i : Nat) : Bool := decide (fld v (8 * i) 6 ≤ 47) && !bit v (8 * i + 6)

/-- A table word with the bytes of a write that are not refused (R148). -/
def scrMerge (old v : Word) : Word :=
  (List.range 4).foldl (fun (a : Word) i => if scrByteOk v i then putf a (8 * i) 8 (fld v (8 * i) 8) else a) old

/-- A write of scrambler entries 4w to 4w + 3, each judged on its own (R148, R150). -/
def State.scrSet (s : State) (p : Path) (n w : Nat) (v : Word) : State :=
  let a := peA n (0x1180 + 4 * w)
  if s.imageOk n then (s.wr a (scrMerge (s.rd a) v)).iff (!(List.range 4).all (scrByteOk v)) (fun s => s.cfgErr p)
  else s.cfgErr p

def execApgScrWrite (p : Path) (n : Fin 64) (w : Fin 16) (v : Word) (s : State) : Host.Outcome State Fault Refusal :=
  .next (s.host p (peA n.val (0x1180 + 4 * w.val)) (fun s => s.scrSet p n.val w.val v))

/-- R150: a lane-map entry that is not refused. -/
def lmapOk (v : Word) : Bool :=
  decide (fld v 0 4 ≠ 15) && decide (fld v 14 2 ≠ 3) && (fld v 14 2 = 0 || decide (fld v 8 6 ≤ 23))

def State.lmapSet (s : State) (p : Path) (n k l : Nat) (v : Word) : State :=
  s.apgSet p n (peA n (0x1200 + 64 * k + 4 * l)) (v &&& 0xFF0F) (lmapOk v)

def execApgLmapWrite (p : Path) (n : Fin 64) (k : Fin 4) (l : Fin 16) (v : Word) (s : State) :
    Host.Outcome State Fault Refusal :=
  .next (s.host p (peA n.val (0x1200 + 64 * k.val + 4 * l.val)) (fun s => s.lmapSet p n.val k.val l.val v))

/-- A register written only while the PE is STOPPED. -/
def State.stoppedSet (s : State) (p : Path) (n : Nat) (f : State → State) : State :=
  if (s.eng n).st = .stopped then f s else s.cfgErr p

def execSitemapWrite (p : Path) (n : Fin 64) (v : Word) (s : State) : Host.Outcome State Fault Refusal :=
  .next (s.host p (peA n.val 0x1020) (fun s => s.stoppedSet p n.val (fun s => s.wr (peA n.val 0x1020) v)))

/-- SITES, with the access of R83. -/
def State.sitesSet (s : State) (p : Path) (n : Nat) (v : Word) : State :=
  if s.imageOk n then s.modPe n (fun p => { p with sites := BitVec.ofNat 4 (fld v 0 4) }) else s.cfgErr p
def State.sitesGet (s : State) (p : Path) (n : Nat) : Word × State :=
  if s.imageOk n then ((s.pe n).sites.zeroExtend 32, s) else (0, s.cfgErr p)

/-- VSTAT -/
def State.vstat (s : State) (n : Nat) : Word :=
  let p := s.pe n
  BitVec.ofNat 32 (p.lbuf.isSome.toNat * 2 ^ 31 + min 448 ((p.aheadBytes + 1023) / 1024))

/-! The Format Store's parity (R322, R323) -/

/-- The key of a word's parity, and whether the word fails its check. -/
def fsKey (n ts w : Nat) : Nat := n * 4096 + ts * 64 + w
def State.fsBad (s : State) (n ts w : Nat) : Bool := tget (fun _ => false) s.fsPar (fsKey n ts w)

/-- A bit of a word flips: 64 is the parity bit. -/
def State.fsFlip (s : State) (n ts : Nat) (f : Fin 64 × Fin 65) : State :=
  let a := fsA n (ts * 0x200 + f.1.val * 8)
  let s := if f.2.val < 64 then s.wr64 a (s.rd64 a ^^^ BitVec.twoPow 64 f.2.val) else s
  { s with fsPar := tset (fun _ => false) s.fsPar (fsKey n ts f.1.val) (!s.fsBad n ts f.1.val) }

/-- Bits that have flipped. -/
def State.fsUpset (s : State) (n ts : Nat) (up : Upset) : State := s.each up (fun s f => s.fsFlip n ts f)

/-- The first of some words that fails its check. -/
def State.fsFirst (s : State) (n ts words : Nat) : Option Nat := (List.range words).find? (fun w => s.fsBad n ts w)

/-- The first word that fails its check of the record the next period takes (R169, R323). -/
def State.fsPeriod (s : State) (n ts : Nat) : Option Nat :=
  match s.oldRec n ts with
  | some o => o.bad
  | none => s.fsFirst n ts 50

/-- A parity error found: counted, and recorded under a bit of FS_STAT unless PERR stands (R323, R324). -/
def State.fsError (s : State) (n ts w i : Nat) : State :=
  let s := s.count (peA n 0x1A0C) (peA n 0x1A08) 28
  let s := if s.tst (peA n 0x1A08) 31 then s else s.wrf (peA n 0x1A08) 0 12 (ts * 64 + w)
  s.put (peA n 0x1A08) i true

/-- PERIOD_RECORD_READ: words 0–49 of the record of the period about to begin are read (R323). -/
def opPeriodRecordRead (n : Nat) (ts : BitVec 6) (up : Upset) (s : State) : State :=
  let s := s.fsUpset n ts.toNat up
  let x := s.eng n
  if x.st ≠ .running then s
  else
    match s.fsPeriod n ts.toNat with
    | none => s.modPe n (fun p => { p with lastTs := some ts })
    | some w =>
      let addr := s.nextPc n
      let s := (s.modPe n (fun p => { p with visRun := none })).advanceTo x.slotAt
      let last := (s.pe n).lastTs
      ((s.fsError n ts.toNat w 31).engFault n clsMchk 2).engStopOut n 6 addr false (some last)

def execPeriodRecordRead (n : Fin 64) (ts : BitVec 6) (up : Upset) (s : State) : Host.Outcome State Fault Refusal :=
  .next (opPeriodRecordRead n.val ts up s)

end Sys2Proof.Machine
end

