-- ==== Sys2Proof/Machine/Rau.lean ====
section
/-! DEFINITION. The Repair Analysis Units: geometry, must-repair, search, commands and result records (R193–R202). Site s
of PE n is number k = 4n + s, and RAU u serves sites 16u to 16u + 15. -/

namespace Sys2Proof.Machine

/-- A register of a site. -/
def rauA (k o : Nat) : Nat := peA (k / 4) (0x2000 + 64 * (k % 4) + o)

/-! Geometry (R193) -/

def State.rauBxw (s : State) (k : Nat) : Nat := s.rdf (rauA k 0x04) 24 5
def State.rauByw (s : State) (k : Nat) : Nat := s.rdf (rauA k 0x04) 16 5
def State.rauNbx (s : State) (k : Nat) : Nat := s.rdf (rauA k 0x04) 8 4
def State.rauNby (s : State) (k : Nat) : Nat := s.rdf (rauA k 0x04) 0 4

/-- Blocks of a site. -/
def State.rauBlocks (s : State) (k : Nat) : Nat := 2 ^ (s.rauNbx k + s.rauNby k)

/-- The block, row and column of a cell; `none` outside the geometry. -/
def State.rauCell (s : State) (k : Nat) (x y : BitVec 24) : Option (Nat × Nat × Nat) :=
  let bx := s.rauBxw k
  let by_ := s.rauByw k
  if 2 ^ (bx + s.rauNbx k) ≤ x.toNat ∨ 2 ^ (by_ + s.rauNby k) ≤ y.toNat then none
  else some (y.toNat / 2 ^ by_ * 2 ^ s.rauNbx k + x.toNat / 2 ^ bx, y.toNat % 2 ^ by_, x.toNat % 2 ^ bx)

/-! Blocks -/

/-- A block of a site. -/
def RauSite.block (x : RauSite) (b : Nat) : Block := tget (fun _ => { sr := x.sr, sc := x.sc }) x.blocks b
def RauSite.setBlock (x : RauSite) (b : Nat) (v : Block) : RauSite :=
  { x with blocks := tset (fun _ => { sr := x.sr, sc := x.sc }) x.blocks b v }

/-- The result region and the record of a block (R201). -/
def State.rauBase (s : State) (k : Nat) : Nat := (s.rd64 (rauA k 0x10)).toNat % 2 ^ 36 / 512 * 512
def State.rauRec (s : State) (k b : Nat) : Nat := s.rauBase k + 512 * b

/-- 16-bit entries, then 0xFFFF to 32 of them. -/
def rauList (l : List Nat) : List Byte :=
  ((l.mergeSort (fun a b => decide (a ≤ b)) ++ List.replicate 32 0xFFFF).take 32).flatMap (fun v => bytesOf 2 v)

/-- The result of a block, bytes 0–255 (R201, R202). -/
def Block.result (b : Block) : List Byte :=
  let rep : Bool := b.final = some .repair
  let rows := if rep then b.rows ++ b.solRows else []
  let cols := if rep then b.cols ++ b.solCols else []
  let code : Nat := match b.final with
    | none => 0
    | some .repair => 0x10
    | some (.notRepairable r) => 0x20 + r
    | some (.timeout r) => 0x30 + r
  bytesOf 8 (code * 2 ^ 56 + rows.length * 2 ^ 50 + cols.length * 2 ^ 44 + b.resid * 2 ^ 37 + min b.nodes 0xFFFFFFFF)
    ++ rauList rows ++ rauList cols ++ List.replicate 120 0

/-- A block's result is written; a write to a stack that is off is dropped (R328). -/
def State.rauWrite (s : State) (k b : Nat) : State :=
  let a := s.rauRec k b
  if a + 512 ≤ 2 ^ 36 ∧ s.stackOn (stackOf a) then s.hbmPut a ((s.site k).block b).result else s

/-- The working state of a block, bytes 256–511, takes contents that are not published: free values (R201). -/
def State.rauWork (s : State) (k b : Nat) : State :=
  let a := s.rauRec k b
  if a + 512 ≤ 2 ^ 36 ∧ s.stackOn (stackOf a) then
    s.each (List.range 32) (fun s i => let (v, s) := s.free; s.hbmPutW (a + 256 + 8 * i) v)
  else s

/-- A block becomes final: RAU_SUM counts it and its record is written; the first outcome stands (R196, R202). -/
def State.rauFinal (s : State) (k b : Nat) (o : RauOut) : State :=
  let x := s.site k
  if (x.block b).final.isSome then s
  else
    let s := s.setSite k (x.setBlock b { x.block b with final := some o, dirty := false })
    let s := match o with
      | .repair => s
      | .notRepairable _ => s.wrf (rauA k 0x18) 16 14 (s.rdf (rauA k 0x18) 16 14 + 1)
      | .timeout _ => s.wrf (rauA k 0x18) 0 14 (s.rdf (rauA k 0x18) 0 14 + 1)
    s.rauWrite k b

/-! Must-repair (R195) -/

/-- Residue cells of a row, and of a column; the distinct rows and columns in ascending order. -/
def rowCount (l : List (Nat × Nat)) (r : Nat) : Nat := l.countP (fun c => c.1 == r)
def colCount (l : List (Nat × Nat)) (c : Nat) : Nat := l.countP (fun v => v.2 == c)
def ascending (l : List Nat) : List Nat := (l.mergeSort (fun a b => decide (a ≤ b))).eraseDups

/-- One row that must be repaired. -/
def Block.takeRow (b : Block) (r : Nat) : Block :=
  if b.final.isSome then b
  else if b.sr = 0 then { b with final := some (.notRepairable 1) }
  else { b with rows := b.rows ++ [r], sr := b.sr - 1, residue := b.residue.filter (fun c => c.1 != r) }

/-- One column that must be repaired. -/
def Block.takeCol (b : Block) (c : Nat) : Block :=
  if b.final.isSome then b
  else if b.sc = 0 then { b with final := some (.notRepairable 2) }
  else { b with cols := b.cols ++ [c], sc := b.sc - 1, residue := b.residue.filter (fun v => v.2 != c) }

/-- The passes over rows and columns until nothing changes. -/
def Block.mustRepair : Nat → Block → Block
  | 0, b => b
  | f + 1, b =>
    let rs := (ascending (b.residue.map (·.1))).filter (fun r => decide (b.sc < rowCount b.residue r))
    let b1 := rs.foldl Block.takeRow b
    let cs := (ascending (b1.residue.map (·.2))).filter (fun c => decide (b1.sr < colCount b1.residue c))
    let b2 := cs.foldl Block.takeCol b1
    if b2.final.isSome then b2
    else if rs.isEmpty && cs.isEmpty then { b2 with dirty := true }
    else Block.mustRepair f b2

/-- A cell fail entered in a block. -/
def Block.enter (b : Block) (r c : Nat) : Block :=
  if b.final.isSome ∨ b.rows.contains r ∨ b.cols.contains c ∨ b.residue.contains (r, c) then b
  else
    let res := b.residue ++ [(r, c)]
    if 64 < res.length then { b with residue := res, final := some (.timeout 5) }
    else Block.mustRepair 70 { b with residue := res }

/-- A block after a change: what it became is recorded. -/
def State.rauStore (s : State) (k b : Nat) (v : Block) : State :=
  let s := (s.setSite k ((s.site k).setBlock b { v with final := none })).rauWork k b
  match v.final with
  | some o => s.rauFinal k b o
  | none => s

/-- The working state of a block cannot be read: an uncorrectable word, or a stack that is off (R200, R328). -/
def State.rauLostWork (s : State) (k b : Nat) (ecc : HbmEcc) : Bool :=
  isUe ecc || !s.stackOn (stackOf (s.rauRec k b))

/-- What reading the working state brings. -/
def State.rauSeen (s : State) (k b : Nat) (ecc : HbmEcc) : State :=
  if !s.stackOn (stackOf (s.rauRec k b)) then s
  else (s.hbmSeen (s.rauRec k b + 256) ecc).iff (isUe ecc) (fun s => s.raise clsEccU 0 7 (stackOf (s.rauRec k b)) 0)

/-- CELL_FAIL: the oldest cell fail of the queue is handled (R193, R195, R196). -/
def opCellFail (u : Nat) (ecc : HbmEcc) (s : State) : State :=
  match (s.rau u).q with
  | [] => s
  | c :: t =>
    let s := s.setRau u { s.rau u with q := t }
    let k := c.site
    if !(s.site k).active ∨ !s.tst (rauA k 0x00) 31 then s
    else
      match s.rauCell k c.x c.y with
      | none => s.put (rauA k 0x24) 3 true
      | some (b, r, col) =>
        let v := (s.site k).block b
        if v.final.isSome then s
        else
          let lost := s.rauLostWork k b ecc
          let s := s.rauSeen k b ecc
          if lost then s.rauFinal k b (.timeout 7)
          else
            let w := v.enter r col
            if w = v then s else s.rauStore k b w

def execCellFail (u : Fin 16) (ecc : HbmEcc) (s : State) : Host.Outcome State Fault Refusal :=
  .next (opCellFail u.val ecc s)

/-! Search (R197) -/

/-- What a call of `try` comes to. -/
inductive TryRes
  | found (rows cols : List Nat)
  | failed
  | aborted
  deriving DecidableEq, Repr

/-- `try`, with the nodes counted so far; `cells` is the residue in ascending order. -/
def tryCover (sr sc lim k : Nat) (cells : List (Nat × Nat)) : Nat → List Nat → List Nat → Nat → TryRes × Nat
  | 0, _, _, nodes => (.failed, nodes)
  | f + 1, rows, cols, nodes =>
    match cells.find? (fun c => !rows.contains c.1 && !cols.contains c.2) with
    | none => (.found rows cols, nodes)
    | some c =>
      if rows.length + cols.length = k then (.failed, nodes)
      else if lim < nodes + 1 then (.aborted, nodes + 1)
      else
        let (r1, n1) := if rows.length < sr then tryCover sr sc lim k cells f (rows ++ [c.1]) cols (nodes + 1)
          else (.failed, nodes + 1)
        match r1 with
        | .failed =>
          if lim < n1 + 1 then (.aborted, n1 + 1)
          else if cols.length < sc then tryCover sr sc lim k cells f rows (cols ++ [c.2]) (n1 + 1)
          else (.failed, n1 + 1)
        | r => (r, n1)

/-- The search over k = 0 to sr + sc. -/
def searchFrom (sr sc lim : Nat) (cells : List (Nat × Nat)) : List Nat → Nat → TryRes × Nat
  | [], nodes => (.failed, nodes)
  | k :: ks, nodes =>
    match tryCover sr sc lim k cells (k + 1) [] [] nodes with
    | (.failed, n) => searchFrom sr sc lim cells ks n
    | r => r

/-- Cells in ascending (row, column). -/
def cellOrder (l : List (Nat × Nat)) : List (Nat × Nat) :=
  l.mergeSort (fun a b => decide (a.1 < b.1) || (a.1 == b.1 && decide (a.2 ≤ b.2)))

/-- A block after its search. -/
def Block.search (b : Block) (lim : Nat) : Block :=
  let (r, n) := searchFrom b.sr b.sc lim (cellOrder b.residue) (List.range (b.sr + b.sc + 1)) 0
  let b := { b with nodes := n, resid := b.residue.length, dirty := false }
  match r with
  | .found rows cols => { b with solRows := rows, solCols := cols }
  | .failed => { b with final := some (.notRepairable 3) }
  | .aborted => { b with final := some (.timeout 4) }

/-- The lowest-numbered dirty block of a site. -/
def RauSite.dirtyBlock (x : RauSite) : Option Nat :=
  (x.blocks.find? (fun b => b.2.dirty && b.2.final.isNone)).map (·.1)

/-- REPAIR_SEARCH: the next dirty block in the rotation of the sites is searched. -/
def opRepairSearch (u : Nat) (ecc : HbmEcc) (s : State) : State :=
  let order := (List.range 16).map (fun i => ((s.rau u).next + i) % 16)
  match order.findSome? (fun i => ((s.site (16 * u + i)).dirtyBlock).map (fun b => (i, b))) with
  | none => s
  | some (i, b) =>
    let k := 16 * u + i
    let s := s.setRau u { s.rau u with next := (i + 1) % 16 }
    let lost := s.rauLostWork k b ecc
    let s := s.rauSeen k b ecc
    if lost then s.rauFinal k b (.timeout 7)
    else s.rauStore k b (((s.site k).block b).search (s.rd (rauA k 0x08)).toNat)

def execRepairSearch (u : Fin 16) (ecc : HbmEcc) (s : State) : Host.Outcome State Fault Refusal :=
  .next (opRepairSearch u.val ecc s)

/-! Commands (R198, R199) -/

/-- A refused command of a site. -/
def State.rauErr (s : State) (p : Path) (k : Nat) : State := (s.put (rauA k 0x24) 1 true).cfgErr p

/-- CLEAR -/
def opRauClear (p : Path) (k : Nat) (s : State) : State :=
  let cnt := s.rauBlocks k
  if (s.eng (k / 4)).st = .stopped ∧ !s.tst (rauA k 0x24) 0 ∧ s.rauBase k + 512 * cnt ≤ 2 ^ 36 then
    let s := s.setSite k { active := true, sr := s.rdf (rauA k 0x00) 24 6, sc := s.rdf (rauA k 0x00) 16 6 }
    let s := s.each (List.range cnt) (fun s b => (s.rauWrite k b).rauWork k b)
    ((s.wr (rauA k 0x18) 0).wr (rauA k 0x1C) 0).put (rauA k 0x24) 0 true
  else s.rauErr p k

/-- SEAL -/
def opSeal (k : Nat) (s : State) : State :=
  let x := s.site k
  if !x.active ∨ x.isSealed then s
  else ((s.setSite k { x with isSealed := true }).put (rauA k 0x18) 30 true).put (rauA k 0x24) 0 true

/-- A write of RAU_CMD: with both bits, only CLEAR acts. -/
def State.rauCmd (s : State) (p : Path) (k : Nat) (v : Word) : State :=
  if bit v 0 then opRauClear p k s else if bit v 1 then opSeal k s else s

def execClear (p : Path) (n : Fin 64) (st : Fin 4) (s : State) : Host.Outcome State Fault Refusal :=
  .next (s.host p (rauA (4 * n.val + st.val) 0x0C) (opRauClear p (4 * n.val + st.val)))

def execSeal (p : Path) (n : Fin 64) (st : Fin 4) (s : State) : Host.Outcome State Fault Refusal :=
  .next (s.host p (rauA (4 * n.val + st.val) 0x0C) (opSeal (4 * n.val + st.val)))

/-- RAU_CLEAR_DONE: the writes of a CLEAR have ended. -/
def opRauClearDone (k : Nat) (s : State) : State := if (s.site k).isSealed then s else s.put (rauA k 0x24) 0 false

def execRauClearDone (n : Fin 64) (st : Fin 4) (s : State) : Host.Outcome State Fault Refusal :=
  .next (opRauClearDone (4 * n.val + st.val) s)

/-- RAU_SEAL_DONE: every queued cell fail is entered and every search done, so every block is final (R199, R202). -/
def opRauSealDone (k : Nat) (s : State) : State :=
  let x := s.site k
  if !x.isSealed ∨ !s.tst (rauA k 0x24) 0 ∨ x.dirtyBlock.isSome ∨ (s.rau (k / 16)).q.any (fun c => c.site == k) then s
  else
    let s := s.each (List.range (s.rauBlocks k)) (fun s b =>
      if ((s.site k).block b).final.isSome then s.rauWrite k b else s.rauFinal k b .repair)
    (s.put (rauA k 0x18) 31 true).put (rauA k 0x24) 0 false

def execRauSealDone (n : Fin 64) (st : Fin 4) (s : State) : Host.Outcome State Fault Refusal :=
  .next (opRauSealDone (4 * n.val + st.val) s)

/-! A cell fail on its way (R194, R200) -/

/-- A vector with a fail on a lane of RAU_CFG gives its site a cell fail. -/
def State.cellFail (s : State) (k : Nat) (x y : BitVec 24) : State :=
  let t := s.site k
  if !t.active ∨ !s.tst (rauA k 0x00) 31 then s
  else
    let s := s.count (rauA k 0x1C) (rauA k 0x24) 31
    if t.isSealed then s.put (rauA k 0x24) 2 true
    else
      let u := s.rau (k / 16)
      if u.q.length < 1024 then s.setRau (k / 16) { u with q := u.q ++ [⟨k, x, y⟩] }
      else
        let s := s.count (rauA k 0x20) (rauA k 0x24) 30
        match s.rauCell k x y with
        | none => s
        | some (b, _, _) => s.rauFinal k b (.timeout 6)

/-! Registers with rules of their own (R194, R203) -/

/-- R194: values that are not refused. -/
def rauCfgOk (v : Word) : Bool := decide (fld v 24 6 ≤ 32) && decide (fld v 16 6 ≤ 32)
def rauGeomOk (v : Word) : Bool :=
  decide (fld v 24 5 ≤ 16) && decide (fld v 16 5 ≤ 16) && decide (fld v 8 4 + fld v 0 4 ≤ 13)
    && decide (fld v 24 5 + fld v 8 4 ≤ 24) && decide (fld v 16 5 + fld v 0 4 ≤ 24)

/-- A write of a configuration register of a site. -/
def State.rauSet (s : State) (p : Path) (k : Nat) (ok : Bool) (f : State → State) : State :=
  if (s.eng (k / 4)).st = .stopped && ok then f s else s.rauErr p k

end Sys2Proof.Machine
end

