-- ==== Sys2Proof/Machine/FailCap.lean ====
section
/-! DEFINITION. Fails and captures, the counters and site results they set, the fail ring's writes, and the fail bitmaps
(R179–R192). -/

namespace Sys2Proof.Machine

/-! Outcomes of a vector (R179, R180) -/

/-- The vector in flight with a vector count, and its repetition within its run. -/
def State.flightOf (s : State) (n : Nat) (vcyc : BitVec 40) : Option (VecIssue × Nat) :=
  (s.pe n).inflight.findSome? (fun v => if (vcyc - v.vcyc).toNat < v.n then some (v, (vcyc - v.vcyc).toNat) else none)

/-- An issue in progress comes to the vector with a vector count. -/
def State.vecReach (s : State) (n : Nat) (vcyc : BitVec 40) : State :=
  State.vecTo n (fun s => (s.flightOf n vcyc).isSome) (s.vecLeft n) s

/-- First tick of a repetition, and the tick at which its outcome is visible (R110). -/
def VecIssue.at_ (v : VecIssue) (i : Nat) : Nat := v.tick + i * v.period
def VecIssue.visAt (v : VecIssue) (i : Nat) : Nat := v.at_ i + v.strobe

/-- Unit intervals of lane l (R159). -/
def VecIssue.uis (v : VecIssue) (l : Nat) : Nat := uiOf (fld v.fmts (4 * l) 4)

/-- Lanes that carry one of some symbols in unit interval j. -/
def VecIssue.lanesSym (v : VecIssue) (j : Nat) (p : Nat → Bool) : BitVec 16 :=
  (List.range 16).foldl (fun m l => setb m l (decide (j < v.uis l) && p (symAt v.vec l j))) 0

/-- The compare symbols CL, CH, CM and CV (R129). -/
def cmpSym (y : Nat) : Bool := decide (2 ≤ y) && decide (y ≤ 5)

/-- Sites enabled at the vector's slot and now. -/
def State.bothSites (s : State) (n : Nat) (v : VecIssue) : BitVec 4 := v.sites &&& (s.pe n).sites

/-- Lanes whose failing outcome in unit interval j is a fail (R162, R179). -/
def State.failLanes (s : State) (n : Nat) (v : VecIssue) (j : Nat) : BitVec 16 :=
  if v.kind = .vis ∨ v.kind = .vmatchLast then
    v.lanesSym j cmpSym &&& v.judged &&& s.lanesOf n (s.bothSites n v) &&& ~~~v.vmask
  else 0

/-- The fields that fail and capture records share (R186, R187). -/
def VecIssue.common (v : VecIssue) (i : Nat) : Nat :=
  v.ts.toNat * 2 ^ 244 + (v.wtc + BitVec.ofNat 48 (i * v.period)).toNat % 2 ^ 40 * 2 ^ 200
    + (v.vcyc + BitVec.ofNat 40 i).toNat * 2 ^ 160 + v.pc % 2 ^ 14 * 2 ^ 146 + (v.rep0 + i) % 2 ^ 16 * 2 ^ 130
    + v.apair.toNat * 2 ^ 128 + v.x.toNat * 2 ^ 104 + v.y.toNat * 2 ^ 80

/-- A fail record (R186). -/
def State.failBits (s : State) (n st i : Nat) (v : VecIssue) (pmask uimask lo hi : BitVec 16) : BitVec 256 :=
  let r := s.rd (peA n (0x1CA0 + 4 * st))
  BitVec.ofNat 256 (1 * 2 ^ 252 + st * 2 ^ 250 + (decide (v.kind = .vmatchLast)).toNat * 2 ^ 243 + (bit r 2).toNat * 2 ^ 242
    + (bit r 4).toNat * 2 ^ 241 + (bit r 5).toNat * 2 ^ 240 + v.common i + pmask.toNat * 2 ^ 64 + uimask.toNat * 2 ^ 48
    + lo.toNat * 2 ^ 32 + hi.toNat * 2 ^ 16)

/-- A capture record (R187). -/
def captureBits (i ui : Nat) (v : VecIssue) (cmask lo hi : BitVec 16) : BitVec 256 :=
  BitVec.ofNat 256 (3 * 2 ^ 252 + v.common i + cmask.toNat * 2 ^ 64 + ui * 2 ^ 48 + lo.toNat * 2 ^ 32 + hi.toNat * 2 ^ 16)

/-! Bitmaps (R190, R191) -/

def State.bmpBase (s : State) (n st : Nat) : Nat := (s.rd64 (peA n (0x1D00 + 16 * st))).toNat % 2 ^ 36 / 64 * 64
def State.bmpXw (s : State) (n st : Nat) : Nat := s.rdf (peA n (0x1D08 + 16 * st)) 0 5
def State.bmpYw (s : State) (n st : Nat) : Nat := s.rdf (peA n (0x1D08 + 16 * st)) 8 5
def State.bmpLanes (s : State) (n st : Nat) : BitVec 16 := BitVec.ofNat 16 (s.rdf (peA n (0x1D08 + 16 * st)) 16 16)

/-- Bytes of a region. -/
def State.bmpSize (s : State) (n st : Nat) : Nat :=
  (2 ^ (s.bmpXw n st + s.bmpYw n st) * popcount (s.bmpLanes n st) + 63) / 64 * 8

/-- Bit b of a region for lane l at (x, y). -/
def State.bmpBit (s : State) (n st l : Nat) (x y : BitVec 24) : Nat :=
  (y.toNat * 2 ^ s.bmpXw n st + x.toNat) * popcount (s.bmpLanes n st) + onesBelow (s.bmpLanes n st) l

/-- An update that is lost: to a full queue, or to a stack that is off (R191, R328). -/
def State.bmpLose (s : State) (n st : Nat) (full : Bool) : State :=
  ((s.count (peA n 0x1C24) (peA n 0x1C1C) 30).iff full (fun s => s.put (peA n 0x1C1C) 2 true)).put
    (peA n (0x1CA0 + 4 * st)) 6 true

/-- An update enters the queue of 256, or merges with the last. -/
def State.bmpPush (s : State) (n : Nat) (u : BmpUpd) : State :=
  let q := (s.pe n).bmpq
  match q.getLast? with
  | some v =>
    if v.site = u.site ∧ v.addr = u.addr then
      s.modPe n (fun p => { p with bmpq := q.dropLast ++ [{ v with bits := v.bits ||| u.bits }] })
    else if 256 ≤ q.length then s.bmpLose n u.site.val true
    else s.modPe n (fun p => { p with bmpq := q ++ [u] })
  | none => s.modPe n (fun p => { p with bmpq := [u] })

/-- A fail of site st at (x, y) on some lanes. Its bits lie in one word, since B divides 64. -/
def State.bmpFail (s : State) (n : Nat) (st : Fin 4) (x y : BitVec 24) (m : BitVec 16) : State :=
  if 2 ^ s.bmpXw n st ≤ x.toNat ∨ 2 ^ s.bmpYw n st ≤ y.toNat then s.count (peA n 0x1C28) (peA n 0x1C1C) 29
  else
    let ls := (List.range 16).filter (fun l => bit (m &&& s.bmpLanes n st) l)
    match ls with
    | [] => s
    | l :: _ =>
      s.bmpPush n
        { site := st, addr := s.bmpBase n st + 8 * (s.bmpBit n st l x y / 64),
          bits := ls.foldl (fun (b : Word64) l => setb b (s.bmpBit n st l x y % 64) true) 0 }

/-! FAIL and CAPTURE -/

/-- A fail of a site becomes visible: its flag sets (R111). -/
def Pe.failed (p : Pe) (st now : Nat) : Pe :=
  { p with ffail := setb p.ffail st true, ffailAt := now,
           ffailNew := setb (if p.ffailAt = now then p.ffailNew else 0) st true }

/-- A site with failing lanes `m` (R180, R181, R194). -/
def State.failSite (s : State) (n i : Nat) (v : VecIssue) (st : Fin 4) (m uimask lo hi : BitVec 16) : State :=
  let s := s.count (peA n (0x1C80 + 4 * st.val)) (peA n 0x1C90) (16 + st.val)
  let s := (s.put (peA n (0x1CA0 + 4 * st.val)) 1 true).modPe n (fun p => p.failed st.val s.now)
  let ls := s.lanesOf n (BitVec.twoPow 4 st.val) &&& v.judged
  let s := s.iff (s.tst (peA n 0x1C18) 0) (fun s =>
    s.ringPush n ⟨v.at_ i, s.fullAt (v.at_ i), BitVec.twoPow 4 st.val,
      .record (s.failBits n st i v m uimask (lo &&& ls) (hi &&& ls))⟩)
  let s := s.iff (s.tst (peA n 0x1C18) (2 + st.val)) (fun s => s.bmpFail n st v.x v.y m)
  s.iff (m &&& BitVec.ofNat 16 (s.rdf (rauA (4 * n + st.val) 0x00) 0 16) ≠ 0) (fun s =>
    s.cellFail (4 * n + st.val) v.x v.y)

/-- FAIL: compare outcomes of a vector become visible: in unit interval j the lanes of `uis[j]` failed their test (R110,
R179). -/
def opFail (n : Nat) (vcyc : BitVec 40) (uis : List (BitVec 16)) (lo hi : BitVec 16) (s : State) : State :=
  let r := s.vecReach n vcyc
  match r.flightOf n vcyc with
  | none => s
  | some (v, i) =>
    let s := r.advanceTo (v.visAt i)
    let us := uis.zipIdx.map (fun u => u.1 &&& s.failLanes n v u.2)
    let m : BitVec 16 := us.foldl (· ||| ·) 0
    let s := s.each (List.range 16) (fun s l =>
      s.iff (bit m l) (fun s => s.count (peA n (0x1C40 + 4 * l)) (peA n 0x1C90) l))
    s.each [(0 : Fin 4), 1, 2, 3] (fun s st =>
      let ml : BitVec 16 := s.lanesOf n (BitVec.twoPow 4 st.val)
      if m &&& ml = 0 then s
      else
        let uimask := us.zipIdx.foldl (fun (a : BitVec 16) u => setb a u.2 (u.1 &&& ml ≠ 0)) 0
        s.failSite n i v st (m &&& ml) uimask lo hi)

def execFail (n : Fin 64) (vcyc : BitVec 40) (uis : List (BitVec 16)) (lo hi : BitVec 16) (s : State) :
    Host.Outcome State Fault Refusal :=
  if uis.length ≤ 16 then .next (opFail n.val vcyc uis lo hi s) else .fault (.illFormed "FAIL")

/-- Sites of the lanes of a mask. -/
def State.sitesOf (s : State) (n : Nat) (m : BitVec 16) : BitVec 4 :=
  (List.range 4).foldl (fun a st => setb a st (m &&& s.lanesOf n (BitVec.twoPow 4 st) ≠ 0)) 0

/-- CAPTURE: the samples of a unit interval that holds CAP (R162, R187). -/
def opCapture (n : Nat) (vcyc : BitVec 40) (ui : Fin 16) (lo hi : BitVec 16) (s : State) : State :=
  let r := s.vecReach n vcyc
  match r.flightOf n vcyc with
  | none => s
  | some (v, i) =>
    let s := r.advanceTo (v.visAt i)
    let c := v.lanesSym ui.val (· == 10) &&& v.caps &&& s.lanesOf n (s.bothSites n v)
    if v.kind = .starve ∨ c = 0 ∨ !s.tst (peA n 0x1C18) 1 then s
    else
      s.ringPush n ⟨v.at_ i, s.fullAt (v.at_ i), s.sitesOf n c, .record (captureBits i ui.val v c (lo &&& c) (hi &&& c))⟩

def execCapture (n : Fin 64) (vcyc : BitVec 40) (ui : Fin 16) (lo hi : BitVec 16) (s : State) :
    Host.Outcome State Fault Refusal :=
  .next (opCapture n.val vcyc ui lo hi s)

/-! The queue reaches HBM (R183, R184, R189) -/

/-- The head of the queue leaves it. -/
def State.ringPop (s : State) (n : Nat) : State :=
  s.modPe n (fun p => { p with ring := { p.ring with q := p.ring.q.tail } })

/-- The stream of a ring. -/
def State.modRing (s : State) (n : Nat) (f : Stream → Stream) : State := s.modPe n (fun p => { p with ring := f p.ring })

/-- The next position lies in a stack that is off (R328). -/
def State.ringOff (s : State) (n : Nat) : Bool :=
  !s.stackOn (stackOf ((s.ringOf n).1 + 32 * (s.rd (peA n 0x1C0C)).toNat))

/-- FAIL_RECORD_WRITE: the next entry of the queue reaches its position; after a loss a RESUME beacon goes first, as soon
as a position is free. -/
def opFailRecordWrite (n : Nat) (ecc : Ecc) (s : State) : State :=
  let q := (s.pe n).ring
  let free := !s.ringFull n && !s.ringOff n
  if q.lost ∧ free then
    let (b, q) := q.beacon 5 s.full 0
    (s.modRing n (fun _ => { q with lost := false })).ringPlace n b
  else
    match q.q with
    | [] => s
    | r :: t =>
      let s := s.ringPop n
      if !free then s.ringLose n r.sites false
      else if ecc = .ue then (s.ringLose n (s.pe n).sites false).engFault n clsEccU 0
      else
        let s := s.iff (ecc = .ce) (fun s => s.engFault n clsEccC 1)
        match r.body with
        | .record b => (s.modRing n (fun q => q.counted)).ringPlace n b
        | .beacon why full prior =>
          let (b, q') := q.beacon why full prior
          (s.modRing n (fun _ => { q' with q := t })).ringPlace n b

def execFailRecordWrite (n : Fin 64) (ecc : Ecc) (s : State) : Host.Outcome State Fault Refusal :=
  .next (opFailRecordWrite n.val ecc s)

/-- BITMAP_UPDATE: the oldest update is OR-ed into its word (R191, R328, R331). -/
def opBitmapUpdate (n : Nat) (ecc : HbmEcc) (s : State) : State :=
  match (s.pe n).bmpq with
  | [] => s
  | u :: t =>
    let s := s.modPe n (fun p => { p with bmpq := t })
    if 2 ^ 36 < u.addr + 8 ∨ !s.stackOn (stackOf u.addr) then s.bmpLose n u.site.val false
    else
      let (v, s) := s.hbmRead u.addr ecc
      let s := s.iff (isUe ecc) (fun s =>
        (s.put (peA n (0x1CA0 + 4 * u.site.val)) 6 true).raise clsEccU 0 7 (stackOf u.addr) 0)
      s.hbmPutW u.addr (v ||| u.bits)

def execBitmapUpdate (n : Fin 64) (ecc : HbmEcc) (s : State) : Host.Outcome State Fault Refusal :=
  .next (opBitmapUpdate n.val ecc s)

/-! Commands and registers (R182, R183, R185, R192) -/

/-- FCAP_STAT.CFG_ERR with the fault. -/
def State.fcapErr (s : State) (p : Path) (n : Nat) : State := (s.put (peA n 0x1C1C) 3 true).cfgErr p

/-- FCAP_CTRL.RING_RESET: both pointers go to 0, and the region of the registers is taken where it lies inside HBM. -/
def State.ringReset (s : State) (p : Path) (n : Nat) : State :=
  if (s.eng n).st ≠ .stopped then s.cfgErr p
  else
    let base := (s.rd64 (peA n 0x1C00)).toNat % 2 ^ 36 / 2 ^ 20 * 2 ^ 20
    let size := s.rdf (peA n 0x1C08) 0 13
    let s := if base + size * 2 ^ 20 ≤ 2 ^ 36 then s.modPe n (fun x => { x with ringBase := base, ringN := size * 32768 })
      else s.fcapErr p n
    (((s.wr (peA n 0x1C0C) 0).wr (peA n 0x1C10) 0).modRing n (fun q => { q with lost := false })).ringBeacon n 4 0

def execRingReset (p : Path) (n : Fin 64) (s : State) : Host.Outcome State Fault Refusal :=
  .next (s.host p (peA n.val 0x1C14) (fun s => s.ringReset p n.val))

def State.fringSizeSet (s : State) (p : Path) (n : Nat) (v : Word) : State :=
  let m := fld v 0 13
  if m = 0 ∨ 4096 < m then s.fcapErr p n else s.wr (peA n 0x1C08) (BitVec.ofNat 32 m)

def execFringSizeWrite (p : Path) (n : Fin 64) (v : Word) (s : State) : Host.Outcome State Fault Refusal :=
  .next (s.host p (peA n.val 0x1C08) (fun s => s.fringSizeSet p n.val v))

def State.fringRdSet (s : State) (p : Path) (n : Nat) (v : Word) : State :=
  let m := fld v 0 27
  if (s.ringOf n).2 ≤ m then s.cfgErr p else s.wr (peA n 0x1C10) (BitVec.ofNat 32 m)

def execFringRdWrite (p : Path) (n : Fin 64) (v : Word) (s : State) : Host.Outcome State Fault Refusal :=
  .next (s.host p (peA n.val 0x1C10) (fun s => s.fringRdSet p n.val v))

/-- BMP_CTRL bit st: the fill of a region begins. -/
def opBmpClear (p : Path) (n st : Nat) (s : State) : State :=
  if (s.eng n).st = .stopped ∧ s.bmpBase n st + s.bmpSize n st ≤ 2 ^ 36 then
    (s.hbmZero (s.bmpBase n st) (s.bmpSize n st)).put (peA n 0x1C1C) (8 + st) true
  else s.fcapErr p n

def execBmpClear (p : Path) (n : Fin 64) (st : Fin 4) (s : State) : Host.Outcome State Fault Refusal :=
  .next (s.host p (peA n.val 0x1C2C) (opBmpClear p n.val st.val))

def execBmpClearDone (n : Fin 64) (st : Fin 4) (s : State) : Host.Outcome State Fault Refusal :=
  .next (s.put (peA n.val 0x1C1C) (8 + st.val) false)

/-- R192: a bitmap geometry that is not refused. -/
def bmpCfgOk (v : Word) : Bool :=
  [1, 2, 4, 8, 16].contains (popcount (BitVec.ofNat 16 (fld v 16 16))) && decide (fld v 0 5 ≤ 24) && decide (fld v 8 5 ≤ 24)
    && decide (fld v 0 5 + fld v 8 5 ≤ 32)

end Sys2Proof.Machine
end

