-- ==== Sys2Proof/Machine/Pin.lean ====
section
/-! DEFINITION. The pins' own faults, LANE_CFG, and the Format Store's commands: COMMIT, LOAD and accesses to a region
(R154–R169, R321–R324). -/

namespace Sys2Proof.Machine

/-! Trips (R156) -/

/-- PIN_STAT[l] and LANE_CFG[l]. -/
def pinA (n l : Nat) : Nat := pbA n (0x40 + 4 * l)
def cfgA (n l : Nat) : Nat := pbA n (4 * l)

/-- A trip of a lane: its driver is forced off until software clears the flag. The other commands of its bank go on. -/
def opTrip (n l i : Nat) (s : State) : State := (s.put (pinA n l) i true).raise clsPin 2 3 n l

/-- OC_TRIP: more than 70 mA for 160 ticks. -/
def execOcTrip (n : Fin 64) (l : Fin 16) (s : State) : Host.Outcome State Fault Refusal := .next (opTrip n.val l.val 8 s)

/-- OV_TRIP: the ball out of range for 160 ticks. -/
def execOvTrip (n : Fin 64) (l : Fin 16) (s : State) : Host.Outcome State Fault Refusal := .next (opTrip n.val l.val 9 s)

/-- PIN_STAT_CLEAR: a write of PIN_STAT clears OC and OV where it holds 1. -/
def State.pinClear (s : State) (n l : Nat) (v : Word) : State := s.wr (pinA n l) (s.rd (pinA n l) &&& ~~~(v &&& 0x300))

def execPinStatClear (p : Path) (n : Fin 64) (l : Fin 16) (v : Word) (s : State) : Host.Outcome State Fault Refusal :=
  .next (s.host p (pinA n.val l.val) (fun s => s.pinClear n.val l.val v))

/-- A write of LANE_CFG[l]: refused as a whole with OFFMODE 0b11, or where it changes DESKEW while the PE is not STOPPED
(R154, R158, R452, R453). -/
def State.laneCfgSet (s : State) (p : Path) (n l : Nat) (v : Word) : State :=
  if fld v 0 2 = 3 ∨ (fld v 16 16 ≠ s.rdf (cfgA n l) 16 16 ∧ (s.eng n).st ≠ .stopped) then s.cfgErr p
  else s.wr (cfgA n l) (v &&& 0xFFFF0003)

def execLaneCfgWrite (p : Path) (n : Fin 64) (l : Fin 16) (v : Word) (s : State) : Host.Outcome State Fault Refusal :=
  .next (s.host p (cfgA n.val l.val) (fun s => s.laneCfgSet p n.val l.val v))

/-! The edge rules (R163, R164) -/

/-- What a lane breaks: rule and EDGE. -/
abbrev Broken := Nat × Nat

/-- The rules of a lane's edges, in ascending order, each with the edge it reports. `e` gives the edge words D1, D2, D3,
C1, C2, and `w` is W. -/
def edgeRules (fmt w : Nat) (e : Nat → Word) : List (Bool × Broken) :=
  let rz : Bool := fmt = 1 || fmt = 2 || fmt = 3
  let on (k : Nat) : Bool := edgeOn (e k)
  let past (k : Nat) : Bool := on k && decide (w < edgeAt (e k) + 128)
  let c : Bool := on 3 && on 4
  [(!on 0, (4, 0)), (rz && !on 1, (4, 1)), (!on 2, (4, 2)), (!rz && on 1, (5, 1)), (past 0, (6, 0)), (past 1, (6, 1)),
   (past 2, (6, 2)), (on 4 && !on 3, (7, 3)), (on 3 && !on 4, (7, 4)),
   (c && (decide (edgeAt (e 4) < edgeAt (e 3) + 132) || decide (w < edgeAt (e 4))), (8, 4)),
   (rz && decide (edgeAt (e 1) < edgeAt (e 0) + 128), (9, 1)), (decide (fmt = 3) && decide (edgeAt (e 0) < 128), (10, 0))]

/-- Whether word 0 or a word from 50 to 63 holds a reserved bit. -/
def reservedSet (rec : List Word64) : Bool :=
  decide (2 ^ 25 ≤ (rec.getD 0 0).toNat) || (rec.drop 50).any (fun w => w ≠ 0)

/-- The lowest rule that lane l of a record breaks. -/
def laneRule (rec : List Word64) (l : Nat) : Option Broken :=
  let period := fld (rec.getD 0 0) 0 25
  let fmt := fld (rec.getD 1 0) (4 * l) 4
  let word (i : Nat) : Word64 := rec.getD (2 + 3 * l + i) 0
  let e (k : Nat) : Word := if k % 2 = 0 then loHalf (word (k / 2)) else hiHalf (word (k / 2))
  let own : List (Bool × Broken) :=
    [(decide (l = 0) && !(decide (2 ≤ period) && decide (period ≤ 2 ^ 24)), (1, 7)), (decide (6 < fmt), (2, 7)),
     (hiHalf (word 2) ≠ 0 || (decide (l = 0) && reservedSet rec), (3, 7))]
  ((own ++ (if 6 < fmt then [] else edgeRules fmt (uiWidth period fmt) e)).find? (·.1)).map (·.2)

/-- The lowest lane that breaks a rule, with its rule and edge. -/
def recordRule (rec : List Word64) : Option (Nat × Broken) :=
  (List.range 16).findSome? (fun l => (laneRule rec l).map (fun b => (l, b)))

/-! COMMIT and LOAD (R168, R169) -/

/-- FMT_STAT.BUSY. -/
def State.fmtBusy (s : State) (n : Nat) : Bool := (s.pe n).fmt.isSome

/-- The staging buffer. -/
def State.fmtBuf (s : State) (n : Nat) : List Word64 := (List.range 64).map (fun w => s.rd64 (peA n (0x1800 + 8 * w)))

/-- A record as the store holds it. -/
def State.fsRec (s : State) (n t cnt : Nat) : List Word64 :=
  (List.range cnt).map (fun w => s.rd64 (fsA n (t * 0x200 + 8 * w)))

/-- A write of FMT_CMD: ignored while BUSY (R168). -/
def State.fmtCmd (s : State) (p : Path) (n : Nat) (v : Word) : State :=
  if s.fmtBusy n then s.cfgErr p
  else (s.modPe n (fun x => { x with fmt := some (BitVec.ofNat 9 (fld v 0 9 &&& 0x13F)) })).put (peA n 0x1A04) 30 true

/-- COMMIT: FMT_CMD with OP 0. -/
def execCommit (p : Path) (n : Fin 64) (ts : BitVec 6) (s : State) : Host.Outcome State Fault Refusal :=
  .next (s.host p (peA n.val 0x1A00) (fun s => s.fmtCmd p n.val (ts.zeroExtend 32)))

/-- LOAD: FMT_CMD with OP 1; `up` are the bits of the timing set that have flipped. -/
def execFmtLoad (p : Path) (n : Fin 64) (ts : BitVec 6) (up : Upset) (s : State) : Host.Outcome State Fault Refusal :=
  .next (s.host p (peA n.val 0x1A00) (fun s => (s.fsUpset n.val ts.toNat up).fmtCmd p n.val (ts.zeroExtend 32 ||| 0x100)))

/-- A record takes 64 words with fresh parity (R322); the record before it serves the periods that begin before
completion + 8 (R169). -/
def State.fsCommit (s : State) (n t : Nat) (rec : List Word64) : State :=
  let old : OldRec := { ts := t, until_ := s.now + 8, words := s.fsRec n t 50, bad := s.fsFirst n t 50 }
  let s := s.modPe n (fun x => { x with oldRec := some old })
  s.each rec.zipIdx (fun s w =>
    { s.wr64 (fsA n (t * 0x200 + 8 * w.2)) w.1 with fsPar := tset (fun _ => false) s.fsPar (fsKey n t w.2) false })

/-- FMT_STAT after a command. -/
def State.fmtResult (s : State) (n t lane edge rule : Nat) : State :=
  let a := peA n 0x1A04
  s.wr a (BitVec.ofNat 32 ((s.tst a 31).toNat * 2 ^ 31 + t * 2 ^ 16 + lane * 2 ^ 12 + edge * 2 ^ 8 + rule))

/-- FMT_CMD_DONE: the command in progress completes. -/
def opFmtCmdDone (n : Nat) (s : State) : State :=
  match (s.pe n).fmt with
  | none => s
  | some v =>
    let t := fld v 0 6
    let s := s.modPe n (fun x => { x with fmt := none })
    if bit v 8 then
      let s := (s.each ((s.fsRec n t 64).zipIdx) (fun s w => s.wr64 (peA n (0x1800 + 8 * w.2)) w.1)).fmtResult n t 0 7 0
      match s.fsFirst n t 64 with
      | some w => (s.fsError n t w 29).engFault n clsMchk 0
      | none => s
    else
      match recordRule (s.fmtBuf n) with
      | some (lane, rule, edge) => ((s.fmtResult n t lane edge rule).put (peA n 0x1A04) 31 true).engFault n clsCfg 0
      | none => (s.fsCommit n t (s.fmtBuf n)).fmtResult n t 0 7 0

def execFmtCmdDone (n : Fin 64) (s : State) : Host.Outcome State Fault Refusal := .next (opFmtCmdDone n.val s)

/-- A write of a staging word: ignored while BUSY. -/
def State.stageSet (s : State) (p : Path) (n : Nat) (f : State → State) : State :=
  if s.fmtBusy n then s.cfgErr p else f s

/-! Accesses to a region (R167, R324) -/

/-- FORMAT_STORE_WRITE: ignored. -/
def execFormatStoreWrite (p : Path) (n : Fin 64) (w : BitVec 13) (_v : Word) (s : State) : Host.Outcome State Fault Refusal :=
  .next (s.host p (fsA n.val (4 * w.toNat)) (fun s => s.cfgErr p))

/-- A read of 32-bit word w of a region: it checks the whole 64-bit word. -/
def State.fsRead (s : State) (n w : Nat) : Word × State :=
  let v := s.rd (fsA n (4 * w))
  let t := w / 128
  let k := w / 2 % 64
  (v, s.iff (s.fsBad n t k) (fun s => (s.fsError n t k 30).engFault n clsMchk 0))

/-- FORMAT_STORE_READ -/
def execFormatStoreRead (p : Path) (n : Fin 64) (w : BitVec 13) (up : Upset) (s : State) : Host.Outcome State Fault Refusal :=
  .next (s.hostRead p (fsA n.val (4 * w.toNat)) (fun s =>
    (s.fsUpset n.val (w.toNat / 128) up).fsRead n.val w.toNat))

end Sys2Proof.Machine
end

