-- ==== Sys2Proof/Machine/Card.lean ====
section
/-! DEFINITION. The Card Port: host transactions, the Card Identity Record and its touchdown count, and the boot flash
window (R417–R424). -/

namespace Sys2Proof.Machine

def cardStat : Nat := serA 0x108
def xipStat : Nat := serA 0x118

/-- A CARD fault of the Supervisor's service of the Card Port (R391). -/
def State.cardFault (s : State) (lvl : Nat) : State := s.raise clsCard lvl 8 0 0

/-! Host transactions (R417) -/

/-- LEN of a transaction: 0 means 4,096. -/
def State.cardLen (s : State) : Nat := let l := s.rdf (serA 0x104) 12 12; if l = 0 then 4096 else l
def State.cardCs (s : State) : Nat := s.rdf (serA 0x104) 8 2

/-- Bit i of a buffer: bit 7 of byte 0 first, byte 4w + i in bits [8i + 7 : 8i] of word w. -/
def cardBitAt (i : Nat) : Nat × Nat := (i / 32 * 4, i / 8 % 4 * 8 + (7 - i % 8))

/-- CARD_CTRL.GO -/
def opCardGo (p : Path) (s : State) : State :=
  if s.cardCs % 2 = 0 ∨ s.tst cardStat 0 then s.cfgErr p
  else (s.put cardStat 0 true).modCard (fun c => { c with goWaits := true })

def execCardGo (p : Path) (s : State) : Host.Outcome State Fault Refusal := .next (s.host p (serA 0x100) (opCardGo p))

/-- CARD_TRANSACTION_DONE: `miso` are the bits sampled, first bit first. -/
def opCardTransactionDone (miso : List Bool) (s : State) : State :=
  if !s.card.goWaits then s
  else
    let n := s.cardLen
    let tx := (List.range n).map (fun i => s.tst (serA (0x200 + (cardBitAt i).1)) (cardBitAt i).2)
    let s := s.emit (.cardBits s.cardCs tx)
    let s := s.each (List.range n) (fun s i => s.put (serA (0x400 + (cardBitAt i).1)) (cardBitAt i).2 (miso.getD i false))
    (((s.modCard (fun c => { c with goWaits := false })).put cardStat 0 false).put cardStat 1 true).irq 165

def execCardTransactionDone (miso : List Bool) (s : State) : Host.Outcome State Fault Refusal :=
  .next (opCardTransactionDone miso s)

/-! The Card Identity Record (R420, R421) -/

/-- A little-endian field of a record. -/
def leAt (b : List Byte) (i n : Nat) : Nat := ofBytes ((b.drop i).take n)

/-- MAGIC and CHECK match. -/
def cirGood (b : List Byte) : Bool :=
  leAt b 0 4 = 0x31524943 && decide (leAt b 28 4 = (crc32 (b.take 28)).toNat)

/-- Copy X is newer than Y. -/
def cirNewer (x y : List Byte) : Bool :=
  let d := (leAt x 14 2 + 65536 - leAt y 14 2) % 65536
  decide (1 ≤ d) && decide (d ≤ 32767)

/-- The copy to use: whether it is B, and its bytes. -/
def cirPick (a b : List Byte) : Option (Bool × List Byte) :=
  if cirGood a && cirGood b then some (if cirNewer b a then (true, b) else (false, a))
  else if cirGood a then some (false, a)
  else if cirGood b then some (true, b)
  else none

/-- CIR_BUSY follows what runs or is due. -/
def State.cirBusy (s : State) : State :=
  s.put cardStat 2 (s.card.cirLoading || s.card.wbBusy || s.card.wbDue)

/-- A WARN or EXPIRED bit that may set (R424). -/
def State.lifeBit (s : State) (i lvl : Nat) (now load : Bool) : State :=
  let old := s.tst cardStat i
  let s := (s.put cardStat i (now || (old && !load))).iff (now && (!old || (load && i == 7))) (fun s => s.cardFault lvl)
  s.iff (now && !old) (fun s => s.irq 165)

/-- The life checks after a count, or after a load. -/
def State.lifeCheck (s : State) (load : Bool) : State :=
  let life := (s.rd (serA 0x12C)).toNat
  let c := (s.rd (serA 0x130)).toNat
  let on : Bool := s.tst cardStat 5 && life != 0
  (s.lifeBit 6 0 (on && decide (life - life / 10 ≤ c)) load).lifeBit 7 2 (on && decide (life ≤ c)) load

/-- CARD_CTRL.CIR_LOAD, and the load when BOOT_DONE sets. -/
def opCirLoad (s : State) : State := (s.modCard (fun c => { c with cirLoading := true })).cirBusy

def execCirLoad (p : Path) (s : State) : Host.Outcome State Fault Refusal := .next (s.host p (serA 0x100) opCirLoad)

/-- CIR_LOAD_DONE: both copies are read. -/
def opCirLoadDone (a b : List Byte) (s : State) : State :=
  if !s.card.cirLoading then s
  else
    let s := (s.modCard (fun c => { c with cirLoading := false })).cirBusy
    match cirPick a b with
    | none => ((((s.put cardStat 5 false).put cardStat 8 true).cardFault 0).irq 165).lifeCheck true
    | some (copy, r) =>
      let held := s.rdf cardStat 16 8
      let s := s.wr64 (serA 0x120) (BitVec.ofNat 64 (leAt r 4 8))
      let s := (s.wr (serA 0x128) (BitVec.ofNat 32 (leAt r 12 2))).wr (serA 0x12C) (BitVec.ofNat 32 (leAt r 16 4))
      let s := (s.wr (serA 0x130) (BitVec.ofNat 32 (leAt r 20 4))).iff (held ≠ 0) (fun s => s.countN (serA 0x130) cardStat 31 held)
      let s := ((s.wrf cardStat 16 8 0).put cardStat 5 true).put cardStat 4 copy
      (s.modCard (fun c => { c with copyB := copy, seqNo := BitVec.ofNat 16 (leAt r 14 2) })).lifeCheck true

def execCirLoadDone (a b : List Byte) (s : State) : Host.Outcome State Fault Refusal :=
  if a.length = 32 ∧ b.length = 32 then .next (opCirLoadDone a b s) else .fault (.illFormed "CIR_LOAD_DONE")

/-! Touchdowns (R422) -/

/-- One touchdown counts, or is held until a record is loaded. -/
def State.touchdown (s : State) : State :=
  if s.tst cardStat 5 then
    let full : Bool := s.rd (serA 0x130) = 0xFFFFFFFF
    let s := s.count (serA 0x130) cardStat 31
    (s.iff (!full && s.rdf (serA 0x130) 0 8 == 0) (fun s => (s.modCard (fun c => { c with wbDue := true })).cirBusy)).lifeCheck
      false
  else s.wrf cardStat 16 8 (min 255 (s.rdf cardStat 16 8 + 1))

/-- TD: CARD_CTRL.TD. -/
def execTd (p : Path) (s : State) : Host.Outcome State Fault Refusal := .next (s.host p (serA 0x100) State.touchdown)

/-- TOUCHDOWN: a rising edge on TD_IN counts, and is a wake event where WAKE_ON_TD says so (R356). -/
def opTouchdown (s : State) : State :=
  let s := s.iff ((s.season = 0 || s.season = 3 || s.season = 5) && s.tst 0x030 1) (fun s =>
    s.modSeas (fun x => { x with held := true }))
  if s.season = 0 ∨ !s.dom 1 then s else s.touchdown

def execTouchdown (s : State) : Host.Outcome State Fault Refusal := .next (opTouchdown s)

/-! Write-back (R423) -/

/-- The record of the copy that was not used last. -/
def State.cirRecord (s : State) : List Byte :=
  let b := bytesOf 4 0x31524943 ++ bytesOf 8 (s.rd64 (serA 0x120)).toNat ++ bytesOf 2 (s.rdf (serA 0x128) 0 16)
    ++ bytesOf 2 ((s.card.seqNo + 1).toNat) ++ bytesOf 4 (s.rd (serA 0x12C)).toNat ++ bytesOf 4 (s.rd (serA 0x130)).toNat
    ++ bytesOf 4 0
  b ++ bytesOf 4 (crc32 b).toNat

/-- CARD_CTRL.CIR_SAVE makes a write-back due; without a record none takes place (R421). -/
def opCirSave (s : State) : State :=
  s.iff (s.tst cardStat 5) (fun s => (s.modCard (fun c => { c with wbDue := true })).cirBusy)

def execCirSave (p : Path) (s : State) : Host.Outcome State Fault Refusal := .next (s.host p (serA 0x100) opCirSave)

/-- The copy is sent out. -/
def State.cirWrite (s : State) : State := s.emit (.cir (!s.card.copyB) s.cirRecord)

/-- CIR_WRITEBACK: a due write-back starts once none runs. -/
def opCirWriteback (s : State) : State :=
  if s.card.wbDue ∧ !s.card.wbBusy ∧ s.tst cardStat 5 then
    (s.cirWrite.modCard (fun c => { c with wbDue := false, wbBusy := true })).cirBusy
  else s

def execCirWriteback (s : State) : Host.Outcome State Fault Refusal := .next (opCirWriteback s)

/-- The copy just written is the one in use. -/
def State.cirFlip (s : State) : State :=
  (s.modCard (fun c => { c with copyB := !c.copyB, seqNo := c.seqNo + 1 })).put cardStat 4 (!s.card.copyB)

/-- CIR_WRITEBACK_DONE: `good` says that the copy reads back as written. -/
def opCirWritebackDone (good : Bool) (s : State) : State :=
  if !s.card.wbBusy then s
  else
    let s := (s.modCard (fun c => { c with wbBusy := false })).cirBusy
    if good then s.cirFlip else ((s.put cardStat 3 true).cardFault 0).irq 165

def execCirWritebackDone (good : Bool) (s : State) : Host.Outcome State Fault Refusal := .next (opCirWritebackDone good s)

/-- The write-back of a season change, where a record is loaded (R351, R353). -/
def State.cirSeason (s : State) : State := if s.tst cardStat 5 then s.cirWrite.cirFlip else s

/-! The flash window (R418, R419) -/

/-- CARD_XIP_CFG.WEN -/
def State.xipWen (s : State) : Bool := s.tst (serA 0x10C) 0

/-- The flash byte of window word w. -/
def State.xipAddr (s : State) (w : Nat) : Nat := s.rdf (serA 0x110) 0 9 * 0x8000 + 4 * w

/-- Three address bytes, most significant first. -/
def flashAddr (a : Nat) : List Byte := (bytesOf 3 a).reverse

/-- The words of a queue's head run: consecutive ascending addresses within one 256-byte page. -/
def xipRun (a : Nat) : List XipItem → List Word
  | .word b v :: t => if b = a ∧ b / 256 = (a - 1) / 256 then v :: xipRun (a + 4) t else []
  | _ => []

/-- The idle port takes the next item of the queue. -/
def State.xipNext (s : State) : State :=
  match s.card.xBusy, s.card.xq with
  | none, .erase k a :: t =>
    (((s.emit (.flash [0x06])).emit (.flash ((if k = 1 then (0x20 : Byte) else 0xD8) :: flashAddr a))).modCard
      (fun c => { c with xBusy := some (s.now, true), xq := t }))
  | none, .word a v :: t =>
    let run := v :: xipRun (a + 4) t
    (((s.emit (.flash [0x06])).emit (.flash ((0x02 : Byte) :: flashAddr a ++ run.flatMap (fun v => bytesOf 4 v.toNat)))).modCard
      (fun c => { c with xBusy := some (s.now, false), xq := (XipItem.word a v :: t).drop run.length }))
  | _, _ => s

/-- A write of the window. -/
def State.xipWrite (s : State) (p : Path) (w : Nat) (v : Word) : State :=
  if !s.xipWen then s.cfgErr p
  else if 64 ≤ s.card.xq.length then (s.put xipStat 30 true).raise clsHost 0 (pathKind p).1 (pathKind p).2 0
  else (s.modCard (fun c => { c with xq := c.xq ++ [.word (s.xipAddr w) v] })).xipNext

def execXipWrite (p : Path) (w : BitVec 13) (v : Word) (s : State) : Host.Outcome State Fault Refusal :=
  .next (s.host p (serA (0x8000 + 4 * w.toNat)) (fun s => s.xipWrite p w.toNat v))

/-- A write of CARD_XIP_ERASE: KIND 0 and 3 are refused. -/
def State.xipErase (s : State) (p : Path) (v : Word) : State :=
  let k := fld v 30 2
  if k = 0 ∨ k = 3 then (s.put xipStat 30 true).cfgErr p
  else if 64 ≤ s.card.xq.length then (s.put xipStat 30 true).raise clsHost 0 (pathKind p).1 (pathKind p).2 0
  else (s.modCard (fun c => { c with xq := c.xq ++ [.erase (BitVec.ofNat 2 k) (fld v 0 24)] })).xipNext

def execXipErase (p : Path) (v : Word) (s : State) : Host.Outcome State Fault Refusal :=
  .next (s.host p (serA 0x114) (fun s => s.xipErase p v))

/-- XIP_READ: it waits until the queue is empty and nothing runs; `flash` are the four bytes read. -/
def opXipRead (p : Path) (w : Nat) (flash : Word) (s : State) : State :=
  if s.card.xBusy.isSome ∨ !s.card.xq.isEmpty then s
  else s.hostRead p (serA (0x8000 + 4 * w)) (fun s => (flash, s.emit (.flash ((0x03 : Byte) :: flashAddr (s.xipAddr w)))))

def execXipRead (p : Path) (w : BitVec 13) (flash : Word) (s : State) : Host.Outcome State Fault Refusal :=
  .next (opXipRead p w.toNat flash s)

/-- XIP_STATUS_POLL: the status is read; with WIP clear the next item starts. -/
def opXipStatusPoll (wip : Bool) (s : State) : State :=
  if s.card.xBusy.isNone then s
  else
    let s := s.emit (.flash [0x05])
    if wip then s else (s.modCard (fun c => { c with xBusy := none })).xipNext

def execXipStatusPoll (wip : Bool) (s : State) : Host.Outcome State Fault Refusal := .next (opXipStatusPoll wip s)

/-- XIP_TIMEOUT: 10 ms after a program, 4 s after an erase. -/
def opXipTimeout (s : State) : State :=
  match s.card.xBusy with
  | none => s
  | some (t, er) =>
    let s := s.advanceTo (t + if er then 6400000000 else 16000000)
    let s := s.modCard (fun c => { c with xBusy := none, xq := [] })
    (((s.put xipStat 31 true).put xipStat 30 true).cardFault 0).irq 165

def execXipTimeout (s : State) : Host.Outcome State Fault Refusal := .next (opXipTimeout s)

/-- XIP_STAT with PBUSY and QLEVEL. -/
def State.xipStatus (s : State) : Word :=
  s.rd xipStat ||| BitVec.ofNat 32 (s.card.xBusy.isSome.toNat * 128 + s.card.xq.length)

/-- A write of CARD_CTRL, bit by bit from the lowest. -/
def State.cardCtrl (s : State) (p : Path) (v : Word) : State :=
  (((s.iff (bit v 0) (opCardGo p)).iff (bit v 1) State.touchdown).iff (bit v 2) opCirLoad).iff (bit v 3) opCirSave

end Sys2Proof.Machine
end

