-- ==== Sys2Proof/Machine/Chan.lean ====
section
/-! DEFINITION. DMA channels: descriptors and their checks, GO, ABORT, RESET, service, ends and bus errors (R333–R341). -/

namespace Sys2Proof.Machine

/-! Descriptors (R333, R334) -/

/-- The fields of a descriptor, four words with word 0 lowest. -/
def dSrc (d : BitVec 256) : Nat := fld d 0 64
def dDst (d : BitVec 256) : Nat := fld d 64 64
def dLen (d : BitVec 256) : Nat := fld d 160 31
def dBurst (d : BitVec 256) : Nat := fld d 156 4
def dSspc (d : BitVec 256) : Nat := fld d 154 2
def dDspc (d : BitVec 256) : Nat := fld d 152 2
def dDfix (d : BitVec 256) : Bool := bit d 151
def dCpl (d : BitVec 256) : Bool := bit d 150
def dIrq (d : BitVec 256) : Bool := bit d 149
def dChain (d : BitVec 256) : Bool := bit d 148
def dPreq (d : BitVec 256) : Nat := fld d 142 6
def dNext (d : BitVec 256) : Nat := fld d 197 59 * 32
def dNspc (d : BitVec 256) : Nat := fld d 192 2

/-- Bytes of an entry of the FIFO that PREQ names (R339). -/
def preqSize (q : Nat) : Nat := if q = 33 then 8 else 32

/-- A range runs past the end of its space. -/
def spaceOver (spc a n : Nat) : Bool :=
  if spc = 0 then decide (2 ^ 36 < a + n) else if spc = 2 then decide (2 ^ 26 < a + n) else false

/-- The first check a descriptor fails; 0 where it passes. -/
def dDerr (d : BitVec 256) : Nat :=
  let p := dPreq d
  if bit d 191 ∨ fld d 128 14 ≠ 0 ∨ fld d 194 3 ≠ 0 then 1
  else if dBurst d < 6 ∨ 12 < dBurst d then 2
  else if dSspc d = 3 ∨ dDspc d = 3 ∨ (dChain d ∧ dNspc d = 3) ∨ dNspc d = 2 then 3
  else if dLen d = 0 ∨ dLen d % 4 ≠ 0 ∨ dSrc d % 4 ≠ 0 ∨ dDst d % 4 ≠ 0 ∨ (p ≠ 0 ∧ dLen d % preqSize p ≠ 0) then 4
  else if (p = 0 ∧ spaceOver (dSspc d) (dSrc d) (dLen d)) ∨ spaceOver (dDspc d) (dDst d) (if dDfix d then 8 else (dLen d))
      ∨ (dDfix d ∧ dDspc d ≠ 2) then 5
  else if 34 ≤ p ∨ (p ≠ 0 ∧ ((dSrc d) ≠ 0 ∨ dSspc d ≠ 0)) then 6
  else 0

/-! Channel state -/

def chKey (d c : Nat) : Nat := 16 * d + c
def chStat (k : Nat) : Nat := chA (k / 16) (k % 16) 0x04

/-- CH_STAT.STATE (R336). -/
def ChSt.code : ChSt → Nat
  | .idle => 0
  | .queued => 1
  | .active => 2
  | .waiting => 3
  | .halted => 4

/-- DMA[e]_STAT.STOPPED. -/
def State.dmaStopped (s : State) (d : Nat) : Bool := s.tst (dmaA d 0x004) 8

/-- Entries in the FIFO that PREQ names, while it asserts its request (R339). -/
def State.preqLevel (s : State) (q : Nat) : Nat :=
  if q = 33 then s.dec.msgRx.length
  else if s.resHost (q - 1) then (s.rx (q - 1)).fifo.length else 0

/-- Bytes of the current descriptor that have not moved; 0 where it has not been read. -/
def Chan.resid (x : Chan) : Nat :=
  match x.desc with
  | some d => (dLen d) - x.moved
  | none => 0

/-- Whether a place cannot be written: a bus error's cause, address and space (R340). -/
def State.placeBad (s : State) (pl : DPlace) : Option (Nat × Nat × Nat) :=
  match pl with
  | .hbm a => if 2 ^ 36 < a + 32 ∨ !s.stackOn (stackOf a) then some (4, a, 0) else none
  | .host a => if s.busMaster then none else some (5, a, 1)
  | .dmem _ _ => none

/-- The address of a descriptor: for DMEM its BAR0 offset. -/
def DPlace.addr : DPlace → Nat
  | .hbm a => a
  | .host a => a
  | .dmem e w => dmemA e.val w

/-- The completion word over word 2 of the descriptor (R335). -/
def State.cplWrite (s : State) (pl : DPlace) (e resid : Nat) : State :=
  let w : Word64 := BitVec.ofNat 64 (2 ^ 63 + e * 2 ^ 60 + resid)
  match pl with
  | .hbm a => if (s.placeBad pl).isSome then s else s.hbmPutW (a + 16) w
  | .host a => if (s.placeBad pl).isSome then s else s.emit (.hostWrite (a + 16) (bytesOf 8 w.toNat))
  | .dmem e i => s.wr64 (dmemA e.val (i + 2)) w

/-- MSI-X vector of a channel (R337). -/
def State.chIrq (s : State) (k : Nat) : State := s.irq (3 + k)

/-- A descriptor that is known ends: its completion word (R335). -/
def State.descEnd (s : State) (k e resid : Nat) : State :=
  let x := s.chan k
  match x.desc with
  | some d => s.iff (dCpl d) (fun s => s.cplWrite x.place e resid)
  | none => s

/-- A channel ends: END, RESID and CH_CUR (R337). -/
def State.chanEnd (s : State) (k e resid : Nat) (st : ChSt) : State :=
  let x := s.chan k
  let s := (s.wrf (chStat k) 4 3 e).wr (chA (k / 16) (k % 16) 0x18) (BitVec.ofNat 32 resid)
  let s := match x.cur with
    | some a => s.wr64 (chA (k / 16) (k % 16) 0x10) a
    | none => s
  s.setChan k { st := st }

/-- A channel ends other than with DONE. -/
def State.chanFail (s : State) (k e resid : Nat) (st : ChSt) : State :=
  ((s.descEnd k e resid).chanEnd k e resid st).chIrq k

/-! Bus errors (R340) -/

/-- The engine stops every one of its channels. -/
def State.dmaHalt (s : State) (d : Nat) : State :=
  (s.each ((List.range 16).map (chKey d)) (fun s k =>
    if (s.chan k).st = .idle ∨ (s.chan k).st = .halted then s else s.chanFail k 5 (s.chan k).resid .halted)).put
      (dmaA d 0x004) 8 true

/-- A bus error: `reads` are the channels that have a read outstanding. -/
def State.dmaBusErr (s : State) (d cause : Nat) (addr : Word64) (space : Nat) (wr : Bool) (reads : BitVec 16) : State :=
  if s.dmaStopped d then s
  else
    let suspect := (List.range 16).foldl (fun (m : BitVec 16) c =>
      let st := (s.chan (chKey d c)).st
      setb m c (st == .active || (bit reads c && st != .idle))) 0
    let s := s.wr64 (dmaA d 0x008) addr
    let s := s.wr (dmaA d 0x010) (BitVec.ofNat 32 (suspect.toNat * 2 ^ 16 + wr.toNat * 2 ^ 6 + cause * 2 ^ 2 + space))
    (s.dmaHalt d).raise clsDma 2 5 d 0

/-- BUS_ERROR -/
def execBusError (d : Fin 4) (cause : BitVec 4) (addr : Word64) (space : BitVec 2) (wr : Bool) (reads : BitVec 16)
    (s : State) : Host.Outcome State Fault Refusal :=
  .next (s.dmaBusErr d.val cause.toNat addr space.toNat wr reads)

/-- DMA_COMPLETION_TIMEOUT: cause 2. -/
def execDmaCompletionTimeout (d : Fin 4) (addr : Word64) (space : BitVec 2) (wr : Bool) (reads : BitVec 16) (s : State) :
    Host.Outcome State Fault Refusal :=
  .next (s.dmaBusErr d.val 2 addr space.toNat wr reads)

/-! Commands (R336, R338, R341) -/

/-- The space code and address of CH_DESC. -/
def State.chPlace (s : State) (k : Nat) : DPlace :=
  let v := (s.rd64 (chA (k / 16) (k % 16) 0x08)).toNat
  if v % 4 = 0 then .hbm (v / 32 * 32) else .host (v / 32 * 32)

/-- CH_CTRL.GO. From the entry of AUTUMN it is ignored (R351). -/
def opGo (p : Path) (d c : Nat) (s : State) : State :=
  let k := chKey d c
  if s.season = 3 then s
  else if s.dmaStopped d ∨ (s.chan k).st ≠ .idle then s.cfgErr p
  else s.setChan k { st := .queued, place := s.chPlace k }

def execGo (p : Path) (d : Fin 4) (c : Fin 16) (s : State) : Host.Outcome State Fault Refusal :=
  .next (s.host p (chA d.val c.val 0) (opGo p d.val c.val))

/-- CH_CTRL.ABORT -/
def opAbort (k : Nat) (s : State) : State :=
  let x := s.chan k
  match x.st with
  | .queued | .waiting => s.chanFail k 2 x.resid .idle
  | .active => s.setChan k { x with abort := true }
  | .idle | .halted => s

def execAbort (p : Path) (d : Fin 4) (c : Fin 16) (s : State) : Host.Outcome State Fault Refusal :=
  .next (s.host p (chA d.val c.val 0) (opAbort (chKey d.val c.val)))

/-- A write of CH_CTRL: with both bits, only ABORT acts. -/
def State.chCtrl (s : State) (p : Path) (d c : Nat) (v : Word) : State :=
  if bit v 1 then opAbort (chKey d c) s else if bit v 0 then opGo p d c s else s

/-- DMA[e]_CTRL.RESET -/
def opDmaReset (p : Path) (d : Nat) (s : State) : State :=
  let ks := (List.range 16).map (chKey d)
  if s.dmaStopped d ∨ ks.all (fun k => (s.chan k).st = .idle) then
    (s.each ks (fun s k => s.setChan k {})).put (dmaA d 0x004) 8 false
  else s.cfgErr p

def execDmaReset (p : Path) (d : Fin 4) (s : State) : Host.Outcome State Fault Refusal :=
  .next (s.host p (dmaA d.val 0) (opDmaReset p d.val))

/-! DMAK (R109) -/

/-- The descriptor at a DMEM word. -/
def State.dmemDesc (s : State) (e w : Nat) : BitVec 256 :=
  BitVec.ofNat 256 ((List.range 4).foldl (fun a i => a + (s.dmem e (w + i)).toNat * 2 ^ (64 * i)) 0)

/-- The status of a DMAK. -/
def State.dmakStatus (s : State) (e d c w : Nat) : Nat :=
  if s.dmaStopped d ∨ s.season = 3 then 2
  else if w % 4 ≠ 0 then 3
  else if (s.chan (chKey d c)).st ≠ .idle then 1
  else if dDerr (s.dmemDesc e w) ≠ 0 then 3
  else 0

/-- DMAK_ACCEPT: the DMA engine answers the DMAK that holds a tag. -/
def opDmakAccept (e : Fin 96) (tag : Nat) (s : State) : State :=
  match (((s.eng e.val).tags.find? (fun t => t.1 == tag)).map (fun t => t.2.why) : Option TagWhy) with
  | some (.dmak d c w) =>
    let st := s.dmakStatus e.val d.val c.val w.toNat
    let s := s.iff (st = 0) (fun s => s.setChan (chKey d.val c.val)
      { st := .queued, place := .dmem e w.toNat, desc := some (s.dmemDesc e.val w.toNat) })
    s.modEng e.val (fun x => x.done tag (BitVec.ofNat 64 st))
  | _ => s

def execDmakAccept (e : Fin 96) (tag : Fin 16) (s : State) : Host.Outcome State Fault Refusal :=
  .next (opDmakAccept e tag.val s)

/-! Service (R337, R339) -/

/-- A peripheral channel whose descriptor is taken. -/
def Chan.periph (x : Chan) : Bool := x.taken && x.desc.any (fun d => dPreq d != 0)

/-- CHANNEL_SERVICE: a free engine takes its lowest-numbered QUEUED channel; a peripheral burst is fixed. -/
def opChannelService (d : Nat) (s : State) : State :=
  let ks := (List.range 16).map (chKey d)
  if s.dmaStopped d ∨ ks.any (fun k => (s.chan k).st = .active) then s
  else
    match ks.find? (fun k => (s.chan k).st = .queued) with
    | none => s
    | some k =>
      let x := s.chan k
      match x.desc with
      | some q =>
        if x.periph then
          let lvl := s.preqLevel (dPreq q)
          let sz := preqSize (dPreq q)
          if lvl = 0 then s.setChan k { x with st := .waiting }
          else s.setChan k { x with st := .active, entries := min lvl (min (2 ^ (dBurst q) / sz) ((dLen q - x.moved) / sz)) }
        else s.setChan k { x with st := .active }
      | none => s.setChan k { x with st := .active }

def execChannelService (d : Fin 4) (s : State) : Host.Outcome State Fault Refusal := .next (opChannelService d.val s)

/-- PREQ_ASSERT: the FIFO asserts its request. -/
def opPreqAssert (k : Nat) (s : State) : State :=
  let x := s.chan k
  if x.st = .waiting ∧ 0 < s.preqLevel ((x.desc.map dPreq).getD 0) then s.setChan k { x with st := .queued } else s

def execPreqAssert (d : Fin 4) (c : Fin 16) (s : State) : Host.Outcome State Fault Refusal :=
  .next (opPreqAssert (chKey d.val c.val) s)

/-- What the read of a descriptor at a place gives: its bits, `none` where the word was uncorrectable. -/
def State.descRead (s : State) (x : Chan) (host : BitVec 256) (ecc : HbmEcc) : Option (BitVec 256) × State :=
  match x.place with
  | .dmem _ _ => (x.desc, s)
  | .host _ => (some host, s)
  | .hbm a =>
    let (v, s) := s.hbmRead a ecc
    if isUe ecc then (none, s.raise clsEccU 0 7 (stackOf a) 0)
    else (some (BitVec.ofNat 256 (v.toNat + ofBytes (s.hbmGet (a + 8) 24) * 2 ^ 64)), s)

/-- A descriptor the channel has taken is checked (R334). -/
def State.descCheck (s : State) (k : Nat) (q : BitVec 256) : State :=
  let e := dDerr q
  let s := s.wrf (chStat k) 8 4 e
  if e = 0 then
    s.modChan k (fun x => { x with taken := true, moved := 0, st := if dPreq q = 0 then .active else .waiting })
  else s.chanFail k 3 (dLen q) .idle

/-- DESCRIPTOR_TAKE: an ACTIVE channel reads its descriptor and checks it. -/
def opDescriptorTake (d c : Nat) (host : BitVec 256) (ecc : HbmEcc) (s : State) : State :=
  let k := chKey d c
  let x := s.chan k
  if x.st ≠ .active ∨ x.taken then s
  else if x.abort then s.chanFail k 2 x.resid .idle
  else
    match s.placeBad x.place with
    | some (cause, a, spc) => s.dmaBusErr d cause (BitVec.ofNat 64 a) spc false 0
    | none =>
      let (q, s) := s.descRead x host ecc
      let s := s.setChan k { x with desc := q, cur := some (BitVec.ofNat 64 x.place.addr), moved := 0 }
      match q with
      | none => (s.wrf (chStat k) 8 4 7).chanFail k 3 0 .idle
      | some q => s.descCheck k q

def execDescriptorTake (d : Fin 4) (c : Fin 16) (host : BitVec 256) (ecc : HbmEcc) (s : State) :
    Host.Outcome State Fault Refusal :=
  .next (opDescriptorTake d.val c.val host ecc s)

/-- A descriptor ends with DONE: the completion word, the count, the interrupt, and what comes after (R335, R337,
R338). -/
def State.descDone (s : State) (k : Nat) (q : BitVec 256) : State :=
  let x := s.chan k
  match if dCpl q then s.placeBad x.place else none with
  | some (cause, a, spc) => s.dmaBusErr (k / 16) cause (BitVec.ofNat 64 (a + 16)) spc true 0
  | none =>
    let s := (s.descEnd k 1 0).count (chA (k / 16) (k % 16) 0x1C) (chStat k) 31
    let s := s.iff (dIrq q) (fun s => s.chIrq k)
    if dChain q ∧ x.abort then (s.chanEnd k 2 0 .idle).chIrq k
    else if dChain q then
      s.setChan k { x with desc := none, taken := false, moved := 0, place := if dNspc q = 0 then .hbm (dNext q) else .host (dNext q),
                           st := if dPreq q = 0 then .active else .queued }
    else s.chanEnd k 1 0 .idle

/-- A burst of `n` bytes has moved. -/
def State.burstDone (s : State) (k n : Nat) (q : BitVec 256) : State :=
  let x := s.chan k
  let m := x.moved + n
  let s := s.setChan k { x with moved := m }
  if dLen q ≤ m then s.descDone k q
  else if x.abort then s.chanFail k 2 ((dLen q) - m) .idle
  else if dPreq q ≠ 0 then s.modChan k (fun x => { x with st := .waiting, entries := 0 })
  else s

end Sys2Proof.Machine
end

