-- ==== Sys2Proof/Machine/Link.lean ====
section
/-! DEFINITION. KLINK ports, joining, time over the link, messages, and the steps of a verdict slot (chapter 10). -/

namespace Sys2Proof.Machine

/-! Frames (R255–R258) -/

/-- The fields of a frame (R255). -/
def frType (f : BitVec 160) : Nat := fld f 157 3
def frSeq (f : BitVec 160) : BitVec 5 := BitVec.ofNat 5 (fld f 152 5)
def frGv (f : BitVec 160) : Word64 := BitVec.ofNat 64 (fld f 88 64)
def frPayload (f : BitVec 160) : BitVec 48 := BitVec.ofNat 48 (fld f 40 48)
def frLoss (f : BitVec 160) : Bool := bit f 39
def frJoined (f : BitVec 160) : Bool := bit f 38
def frEpoch (f : BitVec 160) : BitVec 16 := BitVec.ofNat 16 (fld f 16 16)

/-- R256: the CRC of the bits above it. -/
def frCrc (f : BitVec 160) : BitVec 16 := crc16 ((msbBits f).take 144)

/-- A frame as sent. -/
def mkFrame (type : Nat) (seq : BitVec 5) (gv : Word64) (payload : BitVec 48) (loss joined : Bool)
    (level depth : Nat) (hold : Bool) (epoch : BitVec 16) : BitVec 160 :=
  let f : BitVec 160 := BitVec.ofNat 160 (type * 2 ^ 157 + seq.toNat * 2 ^ 152 + gv.toNat * 2 ^ 88
    + payload.toNat * 2 ^ 40 + loss.toNat * 2 ^ 39 + joined.toNat * 2 ^ 38 + level % 4 * 2 ^ 36 + depth % 4 * 2 ^ 34
    + hold.toNat * 2 ^ 33 + epoch.toNat * 2 ^ 16)
  f ||| (frCrc f).zeroExtend 160

/-- R257: the types a port may receive: an upstream port all eight, a downstream port those of both directions. -/
def typeOk (up : Bool) (t : Nat) : Bool := up || t = 0 || t = 1 || t = 6 || t = 7

/-! Ports (R259–R261) -/

/-- KL[p]_STAT.ROLE: 0 unused, 1 upstream, 2 downstream. -/
def State.klRole (s : State) (p : Nat) : Nat :=
  if s.role = 2 ∧ s.upPort = p then 1 else if s.downEn p then 2 else 0

/-- This node's level (R260). -/
def State.level (s : State) : Nat := if s.role = 2 then (s.kl s.upPort).peerLevel.toNat + 1 else 0

/-- A LINK fault of a port. -/
def State.linkFault (s : State) (p lvl : Nat) : State := s.raise clsLink lvl 6 p 0

/-- NSTATE changes, with its interrupt (R277). -/
def State.setNstate (s : State) (n : NState) : State :=
  if s.dec.nstate = n then s
  else (s.modDec (fun d => { d with nstate := n, timeSeen := false, slotSeen := false })).iff (s.tst (decA 0x084) 3)
    (fun s => s.irq 163)

/-- The node becomes DETACHED by another cause than a JOIN or a LEAVE (R274). -/
def State.detach (s : State) : State :=
  if s.dec.nstate = .detached then s else (s.setNstate .detached).linkFault (if s.role = 2 then s.upPort else 0) 1

/-- A JOIN is refused (R264). -/
def State.joinRefuse (s : State) (p : Path) (cause : Nat) : State :=
  (((s.setNstate .detached).put (decA 0x004) 8 true).wrf (decA 0x004) 4 4 cause).cfgErr p

/-- A port changes state (R261), with its interrupt. The upstream port leaving RUN detaches the node (R274); a node that
still joins has its JOIN refused (R264, cause 2). -/
def State.setPort (s : State) (p : Nat) (st : BitVec 3) : State :=
  let x := s.kl p
  if x.st = st then s
  else
    let y : Kl := if st = 0 ∨ st = 1 then { st := st } else { x with st := st, good := 0, bad := 0, probes := 0 }
    let s := (s.setKl p y).iff (s.tst (decA 0x084) 2) (fun s => s.irq 163)
    if x.st = 4 ∧ s.klRole p = 1 then (if s.dec.nstate = .joining then s.joinRefuse .supervisor 2 else s.detach) else s

/-- Ports named in DEC_CFG train; the others, and all while their domain is off, are DOWN. -/
def State.portsRefresh (s : State) : State :=
  s.each (List.range 8) (fun s p =>
    if s.klRole p = 0 ∨ !s.dom 3 then s.setPort p 0 else if (s.kl p).st = 0 then s.setPort p 1 else s)

/-- CFG_SIG: the CRC over DEC_GV_OP and DEC_GV_FSAFE, little-endian, and DEPTH (R264). -/
def State.cfgSig (s : State) : BitVec 16 :=
  crc16 ((bytesOf 8 s.gvOp.toNat ++ bytesOf 8 s.gvFsafe.toNat ++ bytesOf 1 s.depth).flatMap msbBits)

/-! Joining (R259, R262, R264, R265) -/

/-- Every engine is STOPPED. -/
def State.enginesStopped (s : State) : Bool := (List.range 96).all (fun e => (s.eng e).st = .stopped)

/-- R259: a configuration that JOIN takes. -/
def State.decCfgOk (s : State) : Bool :=
  if s.role = 3 then false
  else if s.role = 1 then s.nodeId = 0
  else if s.role = 2 then !s.downEn s.upPort
  else s.rdf (decA 0x008) 16 8 = 0

/-- Causes 2 to 7 of a NODE, from its most recent upstream frames; 0 is none. -/
def State.upCause (s : State) : Nat :=
  let k := s.kl s.upPort
  if k.st ≠ 4 then 2 else if !k.peerJoined then 3 else if k.peerEpoch = 0 then 4
  else if s.level > s.depth then 5 else if k.peerDepth.toNat ≠ s.depth then 6
  else if k.peerSig ≠ s.cfgSig then 7 else 0

/-- The lowest cause for which a JOIN is refused, or 0. -/
def State.joinCause (s : State) : Nat :=
  let c1 := !s.enginesStopped || (List.range 32).any (fun n => (s.tx n).st ≠ .idle)
  let mid := if s.role = 1 then (if s.epoch = 0 then 4 else 0) else if s.role = 2 then s.upCause else 0
  if c1 then 1 else if mid ≠ 0 then mid else if !s.decCfgOk then 8
  else if s.rdf (timeA 0x008) 0 2 ≠ (if s.role = 2 then 1 else 0) then 9 else 0

/-- JOIN -/
def opJoin (p : Path) (s : State) : State :=
  if s.dec.nstate ≠ .detached then s
  else if s.joinCause ≠ 0 then s.joinRefuse p s.joinCause
  else s.setNstate (if s.role = 2 then .joining else .joined)

def execJoin (p : Path) (s : State) : Host.Outcome State Fault Refusal := .next (s.host p (decA 0x000) (opJoin p))

/-- LEAVE -/
def execLeave (p : Path) (s : State) : Host.Outcome State Fault Refusal :=
  .next (s.host p (decA 0x000) (fun s => s.setNstate .detached))

/-- The phase of TCLK is set from the measured flight (R262). -/
def State.setPhase (s : State) : State :=
  if s.role = 2 then
    let p := s.upPort
    (s.modKl p (fun x => { x with phase := s.rdf (klA p 0x08) 0 16 })).wr (klA p 0x0C) 0
  else s

/-- RECAL, under the conditions of a JOIN. -/
def opRecal (p : Path) (s : State) : State := if s.joinCause ≠ 0 then s.cfgErr p else s.setPhase

def execRecal (p : Path) (s : State) : Host.Outcome State Fault Refusal := .next (s.host p (decA 0x000) (opRecal p))

/-- RETRAIN: ports in FAIL train again. -/
def opRetrain (s : State) : State :=
  s.each (List.range 8) (fun s p => if (s.kl p).st = 5 then s.setPort p 1 else s)

def execRetrain (p : Path) (s : State) : Host.Outcome State Fault Refusal := .next (s.host p (decA 0x000) opRetrain)

/-- A write of DEC_CTRL; with LEAVE, JOIN does not act (R277). -/
def State.decCtrl (s : State) (p : Path) (v : Word) : State :=
  let s := if bit v 1 then s.setNstate .detached else s.iff (bit v 0) (opJoin p)
  (s.iff (bit v 2) (opRecal p)).iff (bit v 3) opRetrain

/-- Both frames of R265 have come: the phase is set and the node is JOINED. -/
def State.joinDone (s : State) : State :=
  if s.dec.nstate = .joining ∧ s.dec.timeSeen ∧ s.dec.slotSeen then s.setPhase.setNstate .joined else s

/-! Arrivals -/

/-- How many ticks after its slot opened a frame arrives on port p (R271). -/
def State.arriveOff (s : State) (p : Nat) : Nat :=
  if s.klRole p = 1 then 60 + 40 * s.depth + 40 * s.level else 20 + 40 * (s.depth - s.level)

/-- The first tick from now on at which a frame of a slot with this SEQ arrives on port p. -/
def State.seqTick (s : State) (p : Nat) (q : BitVec 5) : Nat :=
  let first := s.dec.slotTick + s.arriveOff p
  let k := (s.now - first + 9) / 10
  let ahead := (q - BitVec.ofNat 5 (s.dec.vsc.toNat + k)).toNat
  first + 10 * (k + ahead)

/-- The tick at which a frame arrives and the SEQ the receiver expects on it: 10 ticks a frame after the last one on that
lane; for the first one that counts slots with this module, the tick its SEQ gives. -/
def State.arrival (s : State) (p : Nat) (f : Option (BitVec 160)) : Nat × BitVec 5 :=
  let x := s.kl p
  match f, x.seq with
  | some f, none =>
    if frJoined f ∧ s.dec.nstate = .joined then (s.seqTick p (frSeq f), frSeq f) else (s.now, frSeq f)
  | none, none => (s.now, 0)
  | f, some q =>
    if (f.map frJoined).getD x.peerJoined ≠ x.peerJoined ∧ s.dec.nstate = .joined then
      (s.seqTick p ((f.map frSeq).getD 0), (f.map frSeq).getD 0)
    else
      let m := max 1 ((s.now - x.seqAt + 9) / 10)
      (x.seqAt + 10 * m, q + BitVec.ofNat 5 m)

/-- The slot that a frame arriving now on port p carries. -/
def State.frameSlot (s : State) (p : Nat) : BitVec 48 :=
  s.dec.vsc + BitVec.ofNat 48 ((s.now - s.dec.slotTick - s.arriveOff p) / 10)

/-- A frame fails (R258, R273, R276). -/
def State.frameFails (s : State) (p : Nat) : State :=
  let x := s.kl p
  if x.st = 1 then s.setKl p { x with good := 0 }
  else if x.st = 2 ∨ x.st = 3 ∨ x.st = 4 then
    let (t, q) := s.arrival p none
    let s := s.advanceTo t
    let x := s.kl p
    let s := s.setKl p { x with bad := x.bad + 1, peerHold := true, seq := x.seq.map (fun _ => q), seqAt := t }
    let s := (s.count (klA p 0x04) (klA p 0x00) 31).linkFault p 1
    let s := s.iff (s.klRole p = 1) (fun s => s.modDec (fun d => { d with pairGot := none }))
    let s := s.iff (s.klRole p = 1 && s.dec.nstate = .joined) (fun s =>
      s.modDec (fun d => { d with down := ⟨s.frameSlot p, 0, true⟩ :: d.down.take 1023 }))
    if (s.kl p).bad ≥ 16 ∧ (s.kl p).st = 4 then (s.put (klA p 0x00) 8 true).setPort p 1 else s
  else s

/-- FAILED_FRAME -/
def execFailedFrame (k : Fin 8) (s : State) : Host.Outcome State Fault Refusal := .next (s.frameFails k.val)

/-- What a good frame says of the peer. -/
def Kl.header (x : Kl) (f : BitVec 160) (t : Nat) : Kl :=
  { x with bad := 0, seq := some (frSeq f), seqAt := t, peerJoined := frJoined f,
           peerLevel := BitVec.ofNat 2 (fld f 36 2), peerDepth := BitVec.ofNat 2 (fld f 34 2), peerHold := bit f 33,
           peerEpoch := frEpoch f }

/-- The verdict bits of a good frame (R270, R271, R273). -/
def State.frameVerdicts (s : State) (p : Nat) (f : BitVec 160) : State :=
  if (s.kl p).st ≠ 4 ∨ s.dec.nstate ≠ .joined ∨ !frJoined f then s
  else
    let slot := s.frameSlot p
    let lost := frLoss f || frType f = 0
    if s.klRole p = 1 then
      s.modDec (fun d => { d with down := ⟨slot, (frGv f).zeroExtend 256, lost⟩ :: d.down.take 1023 })
    else
      s.modDec (fun d => { d with contrib := ⟨slot, p, if lost then none else some (frGv f)⟩ :: d.contrib.take 511 })

/-- What every upstream frame is judged for: a JOIN in progress (R264), and JOINED = 0 (R274). A pair RESYNC_AT that any
other frame follows is discarded (R267). -/
def State.upJudge (s : State) (f : BitVec 160) : State :=
  let s := s.iff (frType f != 5) (fun s => s.modDec (fun d => { d with pairGot := none }))
  if s.dec.nstate = .joining then (if s.upCause ≠ 0 then s.joinRefuse .supervisor s.upCause else s)
  else if !frJoined f then s.detach else s

/-- A frame of type `t` arrives on port p: `after` is what its payload does once it is good. A frame that the rules make a
failed one fails, whatever its row (R258). -/
def State.frame (s : State) (p t : Nat) (f : BitVec 160) (after : State → State) : State :=
  let x := s.kl p
  if frType f ≠ t ∨ x.st = 0 ∨ x.st = 5 then s
  else if frCrc f ≠ BitVec.ofNat 16 (fld f 0 16) ∨ !typeOk (s.klRole p = 1) t then s.frameFails p
  else if x.st = 1 then
    (if t ≠ 0 then s.setKl p { x with good := 0 }
     else if x.good + 1 < 64 then s.setKl p { x with good := x.good + 1 } else s.setPort p 2)
  else
    let (tick, q) := s.arrival p (some f)
    if q ≠ frSeq f then s.frameFails p
    else
      let s := s.advanceTo tick
      let s := s.modKl p (fun x => x.header f tick)
      let s := s.iff (t = 7 && s.klRole p = 1) (fun s =>
        s.modKl p (fun x => { x with peerSig := BitVec.ofNat 16 (fld f 72 16) }))
      let s := s.frameVerdicts p f
      let s := s.iff (s.klRole p = 1) (fun s => s.upJudge f)
      after s

/-- TRAIN_FRAME -/
def execTrainFrame (k : Fin 8) (f : BitVec 160) (s : State) : Host.Outcome State Fault Refusal :=
  .next (s.frame k.val 0 f id)

/-- EMPTY_FRAME -/
def execEmptyFrame (k : Fin 8) (f : BitVec 160) (s : State) : Host.Outcome State Fault Refusal :=
  .next (s.frame k.val 1 f id)

/-- ALIGN_DONE: the upward port measures, a downstream port runs (R261). -/
def opAlignDone (p : Nat) (s : State) : State :=
  if (s.kl p).st = 2 then s.setPort p (if s.klRole p = 1 then 3 else 4) else s

def execAlignDone (k : Fin 8) (s : State) : Host.Outcome State Fault Refusal := .next (opAlignDone k.val s)

/-! Time over the link (R265–R267) -/

/-- The mismatch of R266. -/
def State.timeMismatch (s : State) : State := (s.put (decA 0x004) 9 true).detach

/-- A TIME frame has come on the upstream port. -/
def opTime (f : BitVec 160) (s : State) : State :=
  let v := frPayload f + 40
  if s.dec.nstate = .joining then
    let s := s.resyncFrom s.full ⟨s.wtc, v, some (frEpoch f)⟩
    (s.modDec (fun d => { d with timeSeen := true })).joinDone
  else if s.dec.nstate = .joined then
    let across : Bool := match s.dec.resyncAt with
      | some r => decide (s.now - r < 40)
      | none => false
    if across ∨ s.wtc = v then s else s.timeMismatch
  else s

/-- TIME_FRAME -/
def execTimeFrame (k : Fin 8) (f : BitVec 160) (s : State) : Host.Outcome State Fault Refusal :=
  .next (s.frame k.val 2 f (opTime f))

/-- The slot counter is set so that slot `n` opened `off` ticks ago (R265, R268). -/
def State.setSlots (s : State) (n : BitVec 48) (off : Nat) : State :=
  let m := (off - s.now + 9) / 10
  (s.modDec (fun d => { d with vsc := n + BitVec.ofNat 48 m, slotTick := s.now + 10 * m - off, posts := [], local_ := [],
                               glob := [], down := [], contrib := [], doneK := [] })).slotRef

/-- A SLOTNUM frame has come on the upstream port. -/
def opSlotnum (p : Nat) (f : BitVec 160) (s : State) : State :=
  if s.dec.nstate = .joining then
    ((s.setSlots (frPayload f) (s.arriveOff p)).modDec (fun d => { d with slotSeen := true })).joinDone
  else if s.dec.nstate = .joined then (if s.frameSlot p = frPayload f then s else s.timeMismatch)
  else s

/-- SLOTNUM_FRAME -/
def execSlotnumFrame (k : Fin 8) (f : BitVec 160) (s : State) : Host.Outcome State Fault Refusal :=
  .next (s.frame k.val 3 f (opSlotnum k.val f))

/-- RESYNC_AT_FRAME: the first half of a pair. -/
def opResyncAt (f : BitVec 160) (s : State) : State := s.modDec (fun d => { d with pairGot := some (frPayload f) })

def execResyncAtFrame (k : Fin 8) (f : BitVec 160) (s : State) : Host.Outcome State Fault Refusal :=
  .next (s.frame k.val 4 f (opResyncAt f))

/-- RESYNC_LOAD_FRAME: an intact pair is forwarded; a JOINED node that takes its time from the link arms it. -/
def opResyncLoad (f : BitVec 160) (s : State) : State :=
  match s.dec.pairGot with
  | none => s
  | some t =>
    let s := s.modDec (fun d => { d with pairGot := none, pairs := d.pairs ++ [(t, frPayload f, frEpoch f)] })
    if s.dec.nstate = .joined ∧ s.rdf (timeA 0x008) 0 2 = 1 ∧ !isPast t s.wtc ∧ t ≠ s.wtc then
      { s with armed := some ⟨t, frPayload f, some (frEpoch f)⟩ }
    else s

def execResyncLoadFrame (k : Fin 8) (f : BitVec 160) (s : State) : Host.Outcome State Fault Refusal :=
  .next (s.frame k.val 5 f (opResyncLoad f))

/-! Messages (R276) -/

/-- A message is placed in the receive FIFO when it names this node. -/
def State.deliver (s : State) (m : BitVec 48) : State :=
  if bit m 47 ∨ fld m 41 6 = s.nodeId then
    (if s.dec.msgRx.length < 64 then
       (s.modDec (fun d => { d with msgRx := d.msgRx ++ [m] })).iff (s.tst (decA 0x084) 1) (fun s => s.irq 163)
     else s.count (decA 0x0A4) (decA 0x004) 30)
  else s

/-- A MESSAGE frame has come: from upstream it is delivered and goes on downward; from a child it goes upward. -/
def opMessage (p : Nat) (f : BitVec 160) (s : State) : State :=
  if (s.kl p).st ≠ 4 then s
  else
    let m := frPayload f
    let up : Bool := s.klRole p = 1
    let s := s.iff up (fun s => s.deliver m)
    if up ∧ s.rdf (decA 0x008) 16 8 = 0 then s
    else s.modKl p (fun x => if x.buf.length < 16 then { x with buf := x.buf ++ [m] } else x)

/-- MESSAGE_FRAME -/
def execMessageFrame (k : Fin 8) (f : BitVec 160) (s : State) : Host.Outcome State Fault Refusal :=
  .next (s.frame k.val 6 f (opMessage k.val f))

/-- A write of DEC_MSG_TX_HI queues a message; the pair holds DATA and the written half. -/
def msgSet (p : Path) (v : Word) (s : State) : State :=
  let w := s.pairOf p (decA 0x090) (v &&& 0xF3F)
  let s := (s.wr64 (decA 0x090) w).holdLo p (decA 0x090) none
  let m : BitVec 48 := BitVec.ofNat 48 ((bit v 11).toNat * 2 ^ 47 + fld v 0 6 * 2 ^ 41 + s.nodeId * 2 ^ 35
    + fld v 8 3 * 2 ^ 32 + (loHalf w).toNat)
  if s.dec.msgTx.length < 16 then s.modDec (fun d => { d with msgTx := d.msgTx ++ [m] })
  else (s.put (decA 0x0A0) 0 true).raise clsHost 0 (pathKind p).1 (pathKind p).2 0

def execMsgTx (p : Path) (v : Word) (s : State) : Host.Outcome State Fault Refusal :=
  .next (s.host p (decA 0x094) (msgSet p v))

/-- A read of DEC_MSG_RX_LO: the oldest message leaves the FIFO, its other half in the latch. -/
def msgGet (p : Path) (s : State) : Word × State :=
  match s.dec.msgRx with
  | [] => (0, s.setLatch p 0)
  | m :: t =>
    let hi := BitVec.ofNat 32 (2 ^ 31 + fld m 35 6 * 2 ^ 12 + (bit m 47).toNat * 2 ^ 11 + fld m 32 3 * 2 ^ 8 + fld m 41 6)
    (BitVec.ofNat 32 (fld m 0 32), (s.modDec (fun d => { d with msgRx := t })).setLatch p hi)

def execMsgRxRead (p : Path) (s : State) : Host.Outcome State Fault Refusal :=
  .next (s.hostRead p (decA 0x098) (msgGet p))

/-! Flight time (R261, R262) -/

/-- A DELAY frame has come: the upward port takes the flight measured so far, a downstream port echoes the probe. -/
def opDelay (p : Nat) (f : BitVec 160) (flight : BitVec 16) (s : State) : State :=
  let x := s.kl p
  if s.klRole p ≠ 1 then (if x.st = 4 then s.setKl p { x with echo := some (BitVec.ofNat 32 (fld f 40 32)) } else s)
  else if x.st = 3 then
    (if x.probes + 1 < 256 then s.setKl p { x with probes := x.probes + 1 }
     else
       let s := s.wr (klA p 0x08) (flight.zeroExtend 32)
       if flight.toNat > 40960 then (s.put (klA p 0x00) 9 true).setPort p 5 else s.setPort p 4)
  else if x.st = 4 then
    let far (d : Int) : Bool := decide (65 < d) || decide (d < -65)
    let was : BitVec 16 := (s.rd (klA p 0x0C)).truncate 16
    let d : Int := flight.toNat - x.phase
    let s := (s.wr (klA p 0x08) (flight.zeroExtend 32)).wr (klA p 0x0C) ((BitVec.ofInt 16 d).zeroExtend 32)
    s.iff (far d && !far was.toInt) (fun s => (s.put (decA 0x004) 10 true).linkFault p 0)
  else s

/-- DELAY_FRAME: `flight` is the one-way flight in fine steps as measured with this probe. -/
def execDelayFrame (k : Fin 8) (f : BitVec 160) (flight : BitVec 16) (s : State) : Host.Outcome State Fault Refusal :=
  .next (s.frame k.val 7 f (opDelay k.val f flight))

/-! DEC_CFG and line registers (R259, R277) -/

/-- A write of DEC_CFG, DEC_GV_OP or DEC_GV_FSAFE is taken: while DETACHED, or a DEC_CFG that only clears DOWN_EN bits. -/
def State.decWritable (s : State) (cfg : Option Word) : Bool :=
  s.dec.nstate = .detached ||
    match cfg with
    | none => false
    | some v =>
      let cur := s.rd (decA 0x008)
      (v &&& 0xF700003F) = (cur &&& 0xF700003F) && (v &&& 0xFF0000 &&& ~~~cur) = 0

/-- A write of DEC_CFG. -/
def decCfgSet (p : Path) (v : Word) (s : State) : State :=
  if s.decWritable (some v) then (s.wr (decA 0x008) (v &&& 0xF7FF003F)).portsRefresh else s.cfgErr p

def execDecCfgWrite (p : Path) (v : Word) (s : State) : Host.Outcome State Fault Refusal :=
  .next (s.host p (decA 0x008) (decCfgSet p v))

/-- A write of DEC_LV_OP or DEC_LV_FSAFE (R277). -/
def decLvSet (p : Path) (r : Nat) (v : Word) (s : State) : State :=
  if s.enginesStopped then s.wr (decA (0x020 + 4 * r)) v else s.cfgErr p

/-- DEC_LV_OP_WRITE: register `r`, 0–7 DEC_LV_OP and 8–15 DEC_LV_FSAFE. -/
def execDecLvOpWrite (p : Path) (r : Fin 16) (v : Word) (s : State) : Host.Outcome State Fault Refusal :=
  .next (s.host p (decA (0x020 + 4 * r.val)) (decLvSet p r.val v))

/-- DEC_STAT, DEC_MSG_STAT and KL[p]_STAT as read. -/
def State.decStat (s : State) : Word :=
  let n := match s.dec.nstate with
    | .detached => 0
    | .joining => 1
    | .joined => 2
  (s.rd (decA 0x004) &&& 0xC0000FF0) ||| BitVec.ofNat 32 (s.level % 4 * 4 + n)
def State.msgStat (s : State) : Word :=
  (s.rd (decA 0x0A0) &&& 1) ||| BitVec.ofNat 32 (s.dec.msgRx.length * 2 ^ 16 + s.dec.msgTx.length * 2 ^ 8)
def State.klStat (s : State) (p : Nat) : Word :=
  let x := s.kl p
  (s.rd (klA p 0x00) &&& 0x80000300) ||| BitVec.ofNat 32 (s.klRole p * 16 + x.peerJoined.toNat * 8 + x.st.toNat)

/-! The steps of a verdict slot (R271): each command takes its step for the next slot it has not been taken for -/

/-- The fabric counts slots: the WTC runs and the DEC domain is on. -/
def State.slotsRun (s : State) : Bool := s.tst (timeA 0x004) 0 && s.dom 23

/-- The slot index for which step `id`, `off` ticks after the opening, is taken next. -/
def State.nextSlot (s : State) (id off : Nat) : Nat :=
  max (tget (fun _ => 0) s.dec.doneK id) ((s.now - s.dec.slotTick - off + 9) / 10)

/-- The clock comes to a step of the next slot, which is then taken. -/
def State.slotStep (s : State) (id off : Nat) (f : BitVec 48 → State → State) : State :=
  if s.slotsRun then
    let k := s.nextSlot id off
    let slot := s.dec.vsc + BitVec.ofNat 48 k
    let t := s.advanceTo (s.opensAt k + off)
    f slot (t.modDec (fun d => { d with doneK := tset (fun _ => 0) d.doneK id (k + 1) }))
  else s

/-- VERDICT_SLOT_OPEN: the counter advances with the clock (R268). -/
def execVerdictSlotOpen (s : State) : Host.Outcome State Fault Refusal := .next (s.slotStep 0 0 (fun _ s => s))

/-- SLOT_REDUCE: the module's own posts of a slot are reduced. -/
def opReduce (slot : BitVec 48) (s : State) : State :=
  let bits := s.localBits slot
  s.modDec (fun d => { d with local_ := ⟨slot, bits, false⟩ :: (d.local_.filter (fun r => r.slot ≠ slot)).take 1023 })

def execSlotReduce (s : State) : Host.Outcome State Fault Refusal := .next (s.slotStep 1 20 opReduce)

/-- LOCAL_RESULT_VISIBLE: D_L after the opening. -/
def execLocalResultVisible (s : State) : Host.Outcome State Fault Refusal :=
  .next (s.slotStep 2 Config.dLocal (fun _ s => s.wakeWaits))

/-- The frame this module sends: the header fields it says of itself. -/
def State.outFrame (s : State) (p type : Nat) (slot : BitVec 48) (gv : Word64) (payload : BitVec 48) (loss : Bool)
    (epoch : BitVec 16) : BitVec 160 :=
  mkFrame type (slot.truncate 5) gv payload loss (s.dec.nstate = .joined) s.level s.depth
    (decide (8 ≤ (s.kl p).buf.length)) epoch

/-- The message this node sends upward next: its own queue first, then its children in order. -/
def State.upMessage (s : State) : Option (BitVec 48 × State) :=
  if s.dec.nstate ≠ .joined then none
  else
    match s.dec.msgTx with
    | m :: t => some (m, s.modDec (fun d => { d with msgTx := t }))
    | [] =>
      (List.range 8).findSome? (fun p =>
        if s.klRole p = 2 then
          (match (s.kl p).buf with
           | m :: t => some (m, s.modKl p (fun x => { x with buf := t }))
           | [] => none)
        else none)

/-- UPWARD_FRAME_LAUNCH: TRAIN in TRAIN, DELAY probes in CAL, else MESSAGE or EMPTY. -/
def opUpward (slot : BitVec 48) (s : State) : State :=
  let p := s.upPort
  let x := s.kl p
  let (gv, loss) := s.subtree slot
  let send (s : State) (type : Nat) (pl : BitVec 48) : State := s.emit (.frame p (s.outFrame p type slot gv pl loss s.epoch))
  if s.role ≠ 2 then s
  else if x.st = 1 then s.emit (.frame p (s.outFrame p 0 slot 0 0 loss s.epoch))
  else if x.st = 3 then send s 7 (BitVec.ofNat 48 x.probes)
  else if x.st = 4 ∧ !x.peerHold then
    (match s.upMessage with
     | some (m, s) => send s 6 m
     | none => send s 1 0)
  else if x.st = 2 ∨ x.st = 4 then send s 1 0
  else s

def execUpwardFrameLaunch (s : State) : Host.Outcome State Fault Refusal :=
  .next (s.slotStep 3 (20 + 40 * (s.depth - s.level)) opUpward)

/-- The downstream ports in RUN can all take a message in one frame. -/
def State.floodOk (s : State) : Bool :=
  (List.range 8).all (fun p => s.klRole p ≠ 2 || (s.kl p).st ≠ 4 || (!(s.kl p).peerHold && (s.kl p).echo.isNone))

/-- The message that goes downward next: at the root the next that would go upward, delivered here too; at a node what
came from upstream. -/
def State.downMessage (s : State) : Option (BitVec 48 × State) :=
  if !s.floodOk then none
  else if s.role = 1 then s.upMessage.map (fun ms => (ms.1, ms.2.deliver ms.1))
  else
    match (s.kl s.upPort).buf with
    | m :: t => some (m, s.modKl s.upPort (fun x => { x with buf := t }))
    | [] => none

/-- What a downward frame of a slot carries (R258): type, payload and EPOCH for every port, or the port's own. -/
def State.downLoad (s : State) (seq : Nat) : Option (Nat × BitVec 48 × BitVec 16) × State :=
  match s.dec.pairNext, s.dec.pairs with
  | some (l, e), _ => (some (5, l, e), s.modDec (fun d => { d with pairNext := none }))
  | none, (t, l, e) :: rest =>
    (some (4, t, s.epoch), s.modDec (fun d => { d with pairNext := some (l, e), pairs := rest }))
  | none, [] =>
    if seq = 0 then (some (2, s.wtc, s.epoch), s) else (none, s)

/-- The frame of one downstream port. -/
def State.downPort (s : State) (p : Nat) (slot : BitVec 48) (gv : Word64) (loss : Bool)
    (load : Option (Nat × BitVec 48 × BitVec 16)) (m : Option (BitVec 48)) : State :=
  let x := s.kl p
  let send (s : State) (type : Nat) (pl : BitVec 48) (e : BitVec 16) : State :=
    s.emit (.frame p (s.outFrame p type slot gv pl loss e))
  if s.klRole p ≠ 2 then s
  else if x.st = 1 then s.emit (.frame p (s.outFrame p 0 slot 0 0 loss s.epoch))
  else if x.st = 2 ∨ x.st = 4 then
    (match load, x.echo, m with
     | some (t, pl, e), _, _ => send s t pl e
     | none, some n, _ =>
       send (s.setKl p { x with echo := none }) 7 (BitVec.ofNat 48 (s.cfgSig.toNat * 2 ^ 32 + n.toNat)) s.epoch
     | none, none, some m => if x.st = 4 then send s 6 m s.epoch else send s 1 0 s.epoch
     | none, none, none => send s 1 0 s.epoch)
  else s

/-- DOWNWARD_FRAME_LAUNCH: the result of a slot goes to every child (R258, R271, R273). -/
def opDownward (slot : BitVec 48) (s : State) : State :=
  if s.role ≠ 1 ∧ s.role ≠ 2 then s
  else
    let (gv, loss) : Word64 × Bool :=
      if s.role = 1 then s.globalBits slot
      else
        match s.dec.down.find? (fun r => r.slot = slot) with
        | some r => (if r.loss then s.gvFsafe else r.bits.truncate 64, r.loss)
        | none => (s.gvFsafe, true)
    let seq := slot.toNat % 32
    let (load, s) := s.downLoad seq
    let load := match load with
      | some l => some l
      | none => if seq = 16 then some (3, slot, s.epoch) else none
    let (m, s) : Option (BitVec 48) × State := match load with
      | some _ => (none, s)
      | none =>
        match s.downMessage with
        | some (m, s) => (some m, s)
        | none => (none, s)
    s.each (List.range 8) (fun s p => s.downPort p slot gv loss load m)

def execDownwardFrameLaunch (s : State) : Host.Outcome State Fault Refusal :=
  .next (s.slotStep 4 (60 + 40 * s.depth + 40 * s.level) opDownward)

/-- GLOBAL_RESULT_VISIBLE: D_G after the opening; a slot delivered with LOSS counts (R273). -/
def opGlobal (slot : BitVec 48) (s : State) : State :=
  let (gv, loss) := s.globalBits slot
  let s := s.modDec (fun d =>
    { d with glob := ⟨slot, gv.zeroExtend 256, loss⟩ :: (d.glob.filter (fun r => r.slot ≠ slot)).take 1023 })
  let s := s.iff loss (fun s =>
    (s.count (decA 0x080) (decA 0x004) 31).iff (s.tst (decA 0x084) 0) (fun s => s.irq 163))
  s.wakeWaits

def execGlobalResultVisible (s : State) : Host.Outcome State Fault Refusal :=
  .next (s.slotStep 5 s.dGlobal opGlobal)

end Sys2Proof.Machine
end

