-- ==== Sys2Proof/Machine/Season.lean ====
section
/-! DEFINITION. Power domains and seasons (chapter 15): switching, the season commands, WINTER, waking and reset. -/

namespace Sys2Proof.Machine

/-! Power domains (R22, R343–R345) -/

/-- The engines that depend on domain d: a tile's eight, every engine on DEC (R21, R275). -/
def domEngines (d : Nat) : List Nat :=
  if 8 ≤ d ∧ d < 16 then (List.range 8).map (fun i => 8 * (d - 8) + i)
  else if 16 ≤ d ∧ d < 20 then (List.range 8).map (fun i => 64 + 8 * (d - 16) + i)
  else if d = 23 then List.range 96 else []

/-- An engine runs or is suspended. -/
def State.engBusy (s : State) (e : Nat) : Bool :=
  match (s.eng e).st with
  | .running | .suspended | .sigWait => true
  | .stopped | .stopping => false

def State.dmaIdle (s : State) : Bool := (List.range 64).all (fun k => (s.chan k).st = .idle)

/-- A switch-off of domain d is refused (R22, R275, R343). -/
def State.offRefused (s : State) (d : Nat) : Bool :=
  if 4 ≤ d ∧ d < 8 then !s.enginesStopped || !s.dmaIdle
  else if d = 20 then (List.range 64).any (fun n => s.tst (smuS n) 0)
  else (domEngines d).any (fun e => s.engBusy e)

/-- TX[n] outputs code 0 and reads IDLE, unless it is MUTED (R227, R344). -/
def State.txIdle (s : State) (n : Nat) : State :=
  if (s.tx n).st = .muted then s else s.txHalt n (15 * s.now) .idle

/-- What a switch-off does before the power goes: ports of an RF tile stop, and the node leaves its tree (R274, R344). -/
def State.domOff (s : State) (d : Nat) : State :=
  if 16 ≤ d ∧ d < 20 then s.each (List.range 8) (fun s i => s.txIdle (8 * (d - 16) + i))
  else if d = 3 then s.detach else s

/-- One changed bit of a write of GLB_PWR_EN. -/
def State.pwrBit (s : State) (p : Path) (v : Word) (d : Nat) : State :=
  let on := bit v d
  if s.tst 0x020 d = on then s
  else if on then s.put 0x020 d true
  else if s.dom 1 ∧ s.dom d ∧ s.offRefused d then (s.put 0x028 d true).cfgErr p
  else (s.put 0x020 d false).iff (s.dom d) (fun s => s.domOff d)

/-- A write of GLB_PWR_EN: each bit is judged on its own (R344). -/
def opPwrEn (p : Path) (v : Word) (s : State) : State :=
  s.each ((List.range 21).map (fun i => i + 3)) (fun s d => s.pwrBit p v d)

def execPwrEnWrite (p : Path) (v : Word) (s : State) : Host.Outcome State Fault Refusal :=
  .next (s.host p 0x020 (opPwrEn p v))

/-- Every register of domain d at its reset value. -/
def State.domRegs (s : State) (d : Nat) : State := { s with bar := s.bar.filter (fun e => domainOf e.1 != d) }

/-- Pin Bank n without power: its measurements are cancelled, its lanes, PPMUs and calibrations gone (R305, R368). -/
def State.bankGone (s : State) (n : Nat) : State :=
  let s := (s.bankRelease n).tdcCancelBank n
  let s := s.each (List.range 16) (fun s l => ((s.setLane (16 * n + l) {}).setSettle (16 * n + l) 0).calDrop (17 * n + l))
  let s := (s.calDrop (17 * n + 16)).each [0, 1] (fun s t => (s.setTdc (2 * n + t) {}).calDrop (1088 + 2 * n + t))
  s.modPe n (fun p => { p with siDue := 0, siReq := 0 })

/-- RF port n without power. -/
def State.portGone (s : State) (n : Nat) : State :=
  let s := ((s.rxStop n).rresDrop n).setRx n {}
  let s := (s.setTx n {}).calDrop (1280 + n)
  { s with tabs := s.tabs.filter (fun e => e.1 / 2 ^ 21 != n) }.calDrop (1312 + n)

/-- What domain d loses with its power (R274, R343). -/
def State.domGone (s : State) (d : Nat) : State :=
  if d = 3 then (s.each (List.range 8) (fun s p => s.setPort p 0)).detach
  else if 4 ≤ d ∧ d < 8 then
    ({ (s.hbmZero ((d - 4) * 2 ^ 34) (2 ^ 34)) with filling := setb s.filling (d - 4) false }).put 0x1004 (d - 4) false
  else if 8 ≤ d ∧ d < 16 then s.each (List.range 8) (fun s i => s.bankGone (8 * (d - 8) + i))
  else if 16 ≤ d ∧ d < 20 then s.each (List.range 8) (fun s i => s.portGone (8 * (d - 16) + i))
  else if d = 20 then s.each (List.range 64) (fun s n => (s.setSmu n {}).setSettle (1024 + n) 0)
  else if d = 21 then s.each (List.range 64) (fun s n => ((s.madcOff n).setMadc n {}).calDrop (1216 + n))
  else if d = 23 then
    (s.detach.domRegs 23).modDec (fun x => { vsc := x.vsc, slotTick := x.slotTick, resyncAt := x.resyncAt }) |>.portsRefresh
  else s

/-- DOMAIN_POWERED: a domain switched on has its power; a stack fills (R327), ports named train (R261). -/
def opDomainPowered (d : Nat) (s : State) : State :=
  if s.dom 1 ∧ s.tst 0x020 d ∧ !s.dom d then
    let s := s.put 0x024 d true
    if 4 ≤ d ∧ d < 8 then (if s.season = 4 then s else s.hbmFill (d - 4))
    else if d = 3 then s.portsRefresh else s
  else s

def execDomainPowered (d : Fin 24) (s : State) : Host.Outcome State Fault Refusal := .next (opDomainPowered d.val s)

/-- DOMAIN_POWER_GONE: the power of a switched-off domain is gone. CALNV waits for the end of a record write (R343). -/
def opDomainGone (d : Nat) (s : State) : State :=
  if s.dom 1 ∧ !s.tst 0x020 d ∧ s.dom d ∧ 3 ≤ d ∧ !(d = 22 ∧ s.tst (calA 0x004) 5) then
    ((s.domGone d).domRegs d).put 0x024 d false
  else s

def execDomainPowerGone (d : Fin 24) (s : State) : Host.Outcome State Fault Refusal := .next (opDomainGone d.val s)

/-! Season changes (R346–R349) -/

/-- GLB_SEASON takes a season and keeps the one left; entering SPRING, SUMMER or AUTUMN interrupts (R349, R366). -/
def State.setSeason (s : State) (n : Nat) : State :=
  (s.wr 0x010 (BitVec.ofNat 32 (n + 16 * s.season))).iff (s.tst 0x060 0 && (n == 1 || n == 2 || n == 3)) (fun s => s.irq 2)

/-- A refused season command (R346). -/
def State.seasonRefuse (s : State) (p : Path) (bits : Nat) : State :=
  (s.orr 0x018 (BitVec.ofNat 32 bits)).iff (decide (s.season = 1) || decide (s.season = 2) || decide (s.season = 3))
    (fun s => s.cfgErr p)

/-- The microcode is verified again (R320). -/
def State.mcsVerify (s : State) : State := { s with mcsJob := 2 }.put (mcsA 0x004) 0 true

/-- On leaving SUMMER and on a level-3 reaction every calibration but that of an active slice is abandoned; an abandoned
SELFCAL leaves the stand-in IDLE (R170, R374). -/
def State.calAbandon (s : State) : State :=
  s.each s.units (fun s u =>
    if !u.2.running ∨ (u.1 < 1088 ∧ u.1 % 17 ≠ 16) then s
    else (s.calDrop u.1).iff (decide (u.1 < 1088)) (fun s => s.wrf (pbA (u.1 / 17) 0x084) 0 3 0))

/-- The tick of a change between SPRING and SUMMER (R349). -/
def State.changeClocks (s : State) (n : Nat) : State :=
  let s := s.iff (n == 1) State.calAbandon
  let s := s.each (List.range 32) (fun s n => (s.txIdle n).rxStop n)
  let s := s.each (List.range 64) (fun s n => s.tdcCancelBank n)
  (s.setSeason n).iff (n == 1) State.mcsVerify

/-- The conditions of R347 that fail. -/
def State.summerErr (s : State) : Nat :=
  (!s.enginesStopped).toNat + (!s.tst (calA 0x004) 0).toNat * 4 + (!s.seas.refWarm).toNat * 8
    + (!s.tst (timeA 0x004) 0 || s.tst (timeA 0x004) 4).toNat * 16
    + (decide (s.role = 1 ∨ s.role = 2) && decide (s.dec.nstate ≠ .joined)).toNat * 32
    + (s.tst (mcsA 0x004) 0).toNat * 64 + (!s.tst 0x00C 1).toNat * 128

/-- SEASON_CMD_SUMMER -/
def opSummer (p : Path) (s : State) : State :=
  if s.season = 2 then s
  else if s.season ≠ 1 then s.seasonRefuse p 256
  else if s.summerErr ≠ 0 then s.seasonRefuse p s.summerErr
  else s.changeClocks 2

def execSeasonCmdSummer (p : Path) (s : State) : Host.Outcome State Fault Refusal := .next (s.host p 0x014 (opSummer p))

/-- SEASON_CMD_SPRING -/
def opSpring (p : Path) (s : State) : State :=
  if s.season = 1 then s
  else if s.season ≠ 2 then s.seasonRefuse p 256
  else if !s.enginesStopped then s.seasonRefuse p 1
  else s.changeClocks 1

def execSeasonCmdSpring (p : Path) (s : State) : Host.Outcome State Fault Refusal := .next (s.host p 0x014 (opSpring p))

/-- TX[n] is muted: code 0, markers low, overrides released (R227). -/
def State.txMute (s : State) (n : Nat) : State :=
  ((s.txHalt n (15 * s.now) .muted).marksNow n).modTx n (fun x => { x with ovr := 0, ovrLev := 0 })

/-- Every lane parks, every SMU ramps to 0 and every TX port is muted (R351, R353, R397). -/
def State.quench (s : State) : State :=
  let s := s.modSeas (fun x => { x with park3 := true })
  (s.each (List.range 64) (fun s n => s.smuRamp n)).each (List.range 32) (fun s n => s.txMute n)

/-- SEASON_CMD_WINTER (R353). -/
def opWinter (p : Path) (s : State) : State :=
  let err := (!s.enginesStopped).toNat + (!s.dmaIdle).toNat * 2
  if s.season = 0 then s
  else if s.season ≠ 1 ∧ s.season ≠ 2 then s.seasonRefuse p 256
  else if err ≠ 0 then s.seasonRefuse p err
  else
    let s := s.quench.each (List.range 32) (fun s n => s.rxStop n)
    (s.calAbandon.setSeason 5).modSeas (fun x => { x with phase := .winterEntry })

def execSeasonCmdWinter (p : Path) (s : State) : Host.Outcome State Fault Refusal := .next (s.host p 0x014 (opWinter p))

/-- A write of GLB_SEASON_CMD by TARGET. -/
def State.seasonCmd (s : State) (p : Path) (v : Word) : State :=
  let t := fld v 0 2
  if t = 0 then opWinter p s else if t = 1 then opSpring p s else if t = 2 then opSummer p s else s.seasonRefuse p 256

/-! WINTER (R352–R354) -/

/-- A register that survives WINTER (R354): AON registers, the MSI-X table and pending bits, and of HOST_STAT what it says of
the link, which the link keeper holds up (R355; log 19). -/
def survives (a : Nat) : Bool := domainOf a == 0 || (decide (0x3000 ≤ a) && decide (a < 0x4020)) || a == 0x2000

/-- The module is in WINTER: TIME_WINTER holds the last Full Time (R52), and everything but what R354 names is lost. -/
def State.toWinter (s : State) (cause fclass : Nat) (kept : BitVec 4) : State :=
  let s := s.iff (s.tst (timeA 0x004) 0) (fun s => s.wr64 (timeA 0x038) s.full)
  let s := (s.setSeason 0).wr 0x038 (BitVec.ofNat 32 (cause * 2 ^ 28 + fclass * 2 ^ 24 + kept.toNat))
  let s := (s.wr 0x024 1).put 0x00C 1 false
  { State.reset with
    pending := s.pending, now := s.now, fresh := s.fresh, outbox := s.outbox, glbLock := s.glbLock,
    bar := (s.wr 0x2000 (s.rd 0x2000 &&& 0x3FE1)).bar.filter (fun e => survives e.1),
    hbm := s.hbm.filter (fun c => bit kept (stackOf c.1)),
    latch := s.latch.filter (fun e => e.1 == 1), held := s.held.filter (fun e => e.1 / 2 ^ 26 == 1),
    calW := s.calW, calF := s.calF, chn := s.chn, busMaster := s.busMaster, msixEn := s.msixEn, msixMask := s.msixMask,
    seas := { s.seas with phase := .none, park3 := false, cause := 0, fclass := 0 } }

/-- The clock comes to the end of every SMU ramp, and the SMUs are off. -/
def State.smusOff (s : State) : State :=
  s.each (List.range 64) (fun s n => if s.tst (smuS n) 4 then opSmuRampDone n s else s)

/-- WINTER_ENTRY_SELF_REFRESH: READY stacks are kept. -/
def opSelfRefresh (s : State) : State :=
  if s.seas.phase = .winterEntry then
    let s := s.smusOff
    s.cirSeason.toWinter 1 0 (BitVec.ofNat 4 (s.rdf 0x1004 0 4))
  else s

def execWinterEntrySelfRefresh (s : State) : Host.Outcome State Fault Refusal := .next (opSelfRefresh s)

/-- An immediate stop (R352). -/
def State.immediateStop (s : State) (cause : Nat) : State := if s.season = 0 then s else s.toWinter cause 0 0

/-! AUTUMN (R351) -/

/-- AUTUMN begins: STOP to every engine, ABORT to every channel that is not IDLE. -/
def State.autumn (s : State) (cause fclass : Nat) : State :=
  if s.season = 1 ∨ s.season = 2 then
    let s := s.calAbandon.setSeason 3
    let s := s.each (List.range 96) (fun s e => s.stopFor e 8)
    let s := s.each (List.range 64) (fun s k => if (s.chan k).st = .idle then s else opAbort k s)
    s.modSeas (fun x => { x with phase := .autumn1 s.now, cause := cause, fclass := fclass })
  else s

/-- AUTUMN_FORCE_STOP: every engine is STOPPED, or 1 ms is over. -/
def opForceStop (s : State) : State :=
  match s.seas.phase with
  | .autumn1 t =>
    let s := if s.enginesStopped then s else s.advanceTo (t + 1600000)
    let s := s.each (List.range 96) (fun s e => s.engStopNow e 8)
    s.quench.modSeas (fun x => { x with phase := .autumn3 })
  | _ => s

def execAutumnForceStop (s : State) : Host.Outcome State Fault Refusal := .next (opForceStop s)

/-- AUTUMN_POWER_DOWN: every SMU is off. -/
def opPowerDown (s : State) : State :=
  if s.seas.phase = .autumn3 then s.smusOff.cirSeason.toWinter s.seas.cause s.seas.fclass 0 else s

def execAutumnPowerDown (s : State) : Host.Outcome State Fault Refusal := .next (opPowerDown s)

/-! Waking (R354–R357, R360) -/

/-- WINTER_ACCESS: bit 36 of the address names BAR2; in BAR0 an AON register is served as ever. -/
def opWinterAccess (p : Path) (a : BitVec 37) (wr : Bool) (s : State) : State :=
  if (s.season = 0 ∨ s.season = 4 ∨ s.season = 5) ∧ !s.seas.resetLow ∧ (bit a 36 ∨ domainOf (fld a 0 26) ≠ 0) then
    s.winterAnswer.iff (!wr) (fun s => s.answer p 0xFFFFFFFF)
  else s

def execWinterAccess (p : Path) (a : BitVec 37) (wr : Bool) (s : State) : Host.Outcome State Fault Refusal :=
  .next (opWinterAccess p a wr s)

/-- WAKE: a wake event in WINTER, or one held in AUTUMN or WINTER_ENTRY. -/
def opWake (s : State) : State :=
  s.iff (decide (s.season = 0) || decide (s.season = 3) || decide (s.season = 5)) (fun s =>
    s.modSeas (fun x => { x with held := true }))

def execWake (p : Path) (s : State) : Host.Outcome State Fault Refusal := .next (s.host p 0x034 opWake)

/-- What holds a wake event (R356). -/
def State.wakeBlocked (s : State) : Bool :=
  !s.seas.refPresent || !s.tst 0x00C 0
    || ((s.rdf 0x038 28 4 == 3 || s.rdf 0x038 28 4 == 4) && decide (1100 < s.seas.aon))

/-- GLB_STAT.WAKE_HELD -/
def State.wakeHeld (s : State) : Bool := s.seas.held && (s.season ≠ 0 || s.wakeBlocked)

/-- WAKE_START -/
def opWakeStart (s : State) : State :=
  if s.season = 0 ∧ s.seas.held ∧ !s.wakeBlocked then
    ((s.setSeason 4).count 0x03C 0x00C 31).modSeas (fun x => { x with phase := .wake 0, held := false })
  else s

def execWakeStart (s : State) : Host.Outcome State Fault Refusal := .next (opWakeStart s)

/-- WAKE_POWER_UP: every enabled domain is powered. After reset it waits for RESET_N, the supplies and REFCLK
(R358, R359). -/
def opWakePowerUp (s : State) : State :=
  if s.seas.phase = .wake 0 ∧ !s.seas.resetLow ∧ s.tst 0x00C 0 ∧ s.seas.refPresent then
    (s.wr 0x024 (s.rd 0x020 ||| 7)).modSeas (fun x => { x with phase := .wake 1 })
  else s

def execWakePowerUp (s : State) : Host.Outcome State Fault Refusal := .next (opWakePowerUp s)

/-- WAKE_HBM_READY: kept stacks read READY, the other powered stacks fill. -/
def opWakeHbm (s : State) : State :=
  if s.seas.phase = .wake 1 then
    (s.each (List.range 4) (fun s k =>
      if !s.stackOn k then s else if s.tst 0x038 k then s.put 0x1004 k true else s.hbmFill k)).modSeas
        (fun x => { x with phase := .wake 2 })
  else s

def execWakeHbmReady (s : State) : Host.Outcome State Fault Refusal := .next (opWakeHbm s)

/-- Each pending vector that nothing masks sends its message (R355, R409). -/
def State.msixFlush (s : State) : State :=
  s.each (List.range 256) (fun s v =>
    if s.tst (0x4000 + v / 32 * 4) (v % 32) && s.msixEn && !s.msixMask && !s.tst (0x300C + 16 * v) 0 then
      (s.put (0x4000 + v / 32 * 4) (v % 32) false).emit (.msix v)
    else s)

/-- The byte addresses of the firmware and the blob in HBM (R366). -/
def State.fwAddr (s : State) : Nat := (s.rd64 0x048).toNat % 2 ^ 36 / 64 * 64
def State.cfgAddr (s : State) : Nat := (s.rd64 0x050).toNat % 2 ^ 36 / 4 * 4

/-- The ROM boot starts: from HBM where the last boot came from it and its stack was kept, else from flash (R360). -/
def State.bootStart (s : State) : State :=
  let hbm := s.tst 0x040 4 && s.tst 0x038 (stackOf s.fwAddr)
  ((s.put 0x00C 1 false).put 0x040 4 hbm).wrf 0x040 0 3 (if hbm then 3 else 1)

/-- WAKE_SPRING: cycle 20,000, where the WTC reads 1,280,000. -/
def opWakeSpring (s : State) : State :=
  if s.seas.phase = .wake 2 ∧ s.tst (timeA 0x004) 0 then
    let s := (s.advanceWtc 1280000).msixFlush
    ((s.setSeason 1).modSeas (fun x => { x with phase := .none })).mcsVerify.bootStart
  else s

def execWakeSpring (s : State) : Host.Outcome State Fault Refusal := .next (opWakeSpring s)

/-- AON_SENSOR_SAMPLE: a reading in 0.1 °C, two's complement. -/
def opAonSample (r : BitVec 16) (s : State) : State :=
  s.iff (decide (s.season = 0)) (fun s => s.modSeas (fun x => { x with aon := r.toInt }))

def execAonSensorSample (reading : BitVec 16) (s : State) : Host.Outcome State Fault Refusal :=
  .next (opAonSample reading s)

/-! Supplies and reset (R28, R358, R359, R444) -/

/-- Everything at its reset value but what lies outside the module: its pins and supplies, CALNV, and the model's own
record. -/
def State.resetAll (s : State) (low : Bool) : State :=
  { State.reset with
    pending := s.pending, now := s.now, fresh := s.fresh, outbox := s.outbox, calW := s.calW, calF := s.calF,
    seas := { refPresent := s.seas.refPresent, refsel := s.seas.refsel, refWarm := s.seas.refWarm,
              lvlclr := s.seas.lvlclr, aon := s.seas.aon, resetLow := low } }.put 0x00C 0 (s.tst 0x00C 0)

/-- RESET_N_ASSERT -/
def execResetNAssert (s : State) : Host.Outcome State Fault Refusal := .next (s.resetAll true)

/-- RESET_N_RELEASE: the sequence of R357 may begin. -/
def execResetNRelease (s : State) : Host.Outcome State Fault Refusal :=
  .next (s.modSeas (fun x => { x with resetLow := false }))

/-- SUPPLY_LOSS: `vddhbm` says that HBM's own supply is among the rails lost. -/
def opSupplyLoss (vddhbm : Bool) (s : State) : State :=
  let s := s.put 0x00C 0 false
  if s.season = 0 then
    (if vddhbm then { (s.wrf 0x038 0 4 0) with hbm := [] } else s)
  else s.immediateStop 5

def execSupplyLoss (vddhbm : Bool) (s : State) : Host.Outcome State Fault Refusal := .next (opSupplyLoss vddhbm s)

/-- PWR_GOOD_RISE -/
def execPwrGoodRise (s : State) : Host.Outcome State Fault Refusal := .next (s.put 0x00C 0 true)

/-- VAON_COLLAPSE: the whole module is reset at once. -/
def execVaonCollapse (s : State) : Host.Outcome State Fault Refusal := .next ((s.resetAll s.seas.resetLow).put 0x00C 0 false)

end Sys2Proof.Machine
end

