-- ==== Sys2Proof/Machine/Faults.lean ====
section
/-! DEFINITION. The fault collector: latches, escalation, reactions and the fault state (chapter 18). -/

namespace Sys2Proof.Machine

/-- FLT_SRC[c]; FLT_TIME[c] and FLT_CNT[c] follow it. -/
def srcA (c : Nat) : Nat := fltA (0x100 + 16 * c)

/-- R394: one level higher while the class is latched and its escalation enabled, up to 4. -/
def State.handledAt (s : State) (f : FaultRec) : Nat :=
  if s.tst (fltA 0x004) f.cls ∧ s.tst (fltA 0x010) f.cls then min 4 (f.lvl + 1) else f.lvl

/-- R393: the first fault of a class is latched, a further one sets OVF and MAXLVL; each counts. -/
def State.latchFault (s : State) (f : FaultRec) (lvl : Nat) : State :=
  let a := srcA f.cls
  let s :=
    if s.tst (fltA 0x004) f.cls then
      (s.put (fltA 0x008) f.cls true).wrf a 26 3 (max lvl (s.rdf a 26 3))
    else
      ((s.wr a (BitVec.ofNat 32 (lvl * 2 ^ 29 + lvl * 2 ^ 26 + f.kind % 16 * 2 ^ 20 + f.idx % 256 * 2 ^ 12
        + f.info % 4096))).wr64 (a + 4) f.full).put (fltA 0x004) f.cls true
  (s.count (a + 12) (fltA 0x01C) f.cls).wrf (fltA 0x000) 4 3 lvl |>.wrf (fltA 0x000) 8 4 f.cls

/-- The engine that is the target of a source, of KIND 1 or 3, and 2 or 4 (R391). -/
def targetEng (f : FaultRec) : Option Nat :=
  if f.kind = 1 ∨ f.kind = 3 then some f.idx else if f.kind = 2 ∨ f.kind = 4 then some (64 + f.idx) else none

/-- R392: the target stops, and an engine is held. -/
def State.contain (s : State) (f : FaultRec) : State :=
  match targetEng f with
  | some e => (s.engStopReq e 7).modEng e (fun x => { x with hold := setb x.hold f.cls true })
  | none => s.iff (f.kind == 5) (fun s => s.dmaHalt f.idx)

/-- The reaction of a level (R392, R396–R398). -/
def State.react (s : State) (f : FaultRec) (lvl : Nat) : State :=
  let s := s.iff (decide (1 ≤ lvl)) (fun s => { s with quietFrom := s.now })
  if lvl = 4 then s.autumn 2 f.cls
  else if 2 ≤ lvl then
    let s := (s.contain f).wrf (fltA 0x000) 0 3 (max lvl (s.rdf (fltA 0x000) 0 3))
    s.iff (lvl == 3) (fun s => s.quench.calAbandon)
  else s

/-- The collector handles a fault, and interrupts where its level is enabled (R399). -/
def State.collect (s : State) (f : FaultRec) : State :=
  let lvl := s.handledAt f
  let s := (s.latchFault f lvl).iff (s.tst (fltA 0x014) lvl) (fun s => s.irq 0)
  s.react f lvl

/-- FAULT_ARRIVAL: the next fault reaches the collector, which is off without the SV domain (R398). -/
def opFaultArrival (s : State) : State :=
  match s.faults with
  | [] => s
  | f :: t => let s := { s with faults := t }; if s.dom 1 then s.collect f else s

def execFaultArrival (s : State) : Host.Outcome State Fault Refusal := .next (opFaultArrival s)

/-- FAULT_ACK: a write of FLT_PEND. The latch is discarded, and a hold ends with the last of its classes (R392, R395). -/
def opFaultAck (classes : BitVec 16) (s : State) : State :=
  let s := s.each (List.range 16) (fun s c =>
    if bit classes c then ((s.put (fltA 0x004) c false).wr (srcA c) 0).wr64 (srcA c + 4) 0 else s)
  s.each (List.range 96) (fun s e =>
    if (s.eng e).hold = 0 then s else s.modEng e (fun x => { x with hold := x.hold &&& ~~~classes }))

def execFaultAck (p : Path) (classes : BitVec 16) (s : State) : Host.Outcome State Fault Refusal :=
  .next (s.host p (fltA 0x004) (opFaultAck classes))

/-- A write of FLT_CFG: QUIET is 1 to 65,535 (R400). -/
def fltCfgSet (p : Path) (v : Word) (s : State) : State :=
  if fld v 0 16 = 0 then s.cfgErr p else s.wr (fltA 0x00C) (v &&& 0xFFFF)

/-- The tick at which the quiet timer ends the fault state: at QUIET microseconds, or at the next count where QUIET has
become lower (R396). -/
def State.quietEnd (s : State) : Nat :=
  s.quietFrom + 1600 * max (s.rdf (fltA 0x00C) 0 16) ((s.now - s.quietFrom + 1599) / 1600)

/-- What ends with the fault state at TX[n]: MUTED, and the step mode that the state gave a start (R226, R227). -/
def State.txRecover (s : State) (n : Nat) : State :=
  let x := s.tx n
  if x.st = .muted then
    (if s.season = 3 ∨ s.season = 5 then s else s.setTx n { x with st := .idle })
  else if x.stepFault then
    let s := s.setTx n { x with stepFault := false }
    if x.st = .waiting ∧ x.startAt.isNone ∧ !s.stepMode n ∧ !(segWait (s.segEntry n x.seg.toNat) ∧ x.plays = 0) then
      s.modTx n (fun y => { y with startAt := some (s.txGrid n (15 * s.now)) })
    else s
  else s

/-- FAULT_STATE_END: lanes and TX ports recover; holds stay, SMUs stay off (R396, R397). -/
def opFaultStateEnd (s : State) : State :=
  if s.rdf (fltA 0x000) 0 3 = 0 then s
  else
    let s := (s.advanceTo s.quietEnd).wrf (fltA 0x000) 0 3 0
    let s := (s.count (fltA 0x018) (fltA 0x000) 31).iff (s.tst (fltA 0x014) 5) (fun s => s.irq 0)
    let s := s.iff (s.season != 3 && s.season != 5) (fun s => s.modSeas (fun x => { x with park3 := false }))
    s.each (List.range 32) (fun s n => s.txRecover n)

def execFaultStateEnd (s : State) : Host.Outcome State Fault Refusal := .next (opFaultStateEnd s)

/-- FLT_HOLD_PE and FLT_HOLD_WE as read (R400). -/
def State.holdBits (s : State) (first : Nat) : Word :=
  (List.range 32).foldl (fun (v : Word) i => setb v i ((s.eng (first + i)).hold ≠ 0)) 0

end Sys2Proof.Machine
end

