-- ==== Sys2Proof/Machine/Cal.lean ====
section
/-! DEFINITION. Background calibration (chapter 16) and the stand-in's handovers (R170–R178). -/

namespace Sys2Proof.Machine

/-! Units (R367) -/

/-- The kind of unit u and its instance: slice s of bank n as 17n + s, TDC t of bank n as 2n + t. -/
def unitKind (u : Nat) : Nat :=
  if u < 1088 then 0 else if u < 1216 then 1 else if u < 1280 then 2 else if u < 1312 then 3 else 4
def unitInst (u : Nat) : Nat :=
  if u < 1088 then u else if u < 1216 then u - 1088 else if u < 1280 then u - 1216
  else if u < 1312 then u - 1280 else u - 1312

/-- The bank or port of a unit. -/
def unitBank (u : Nat) : Nat :=
  match unitKind u with
  | 0 => unitInst u / 17
  | 1 => unitInst u / 2
  | _ => unitInst u

/-- The power domain of a unit. -/
def unitDom (u : Nat) : Nat :=
  match unitKind u with
  | 0 | 1 => 8 + unitBank u / 8
  | 2 => 21
  | _ => 16 + unitBank u / 8

/-- The domain of the unit's tile, and the first of its three sensors (R379). -/
def unitTile (u : Nat) : Nat := if unitKind u ≤ 2 then 8 + unitBank u / 8 else 16 + unitBank u / 8
def tileSensor (d : Nat) : Nat := if d < 16 then 12 + 3 * (d - 8) else 36 + 3 * (d - 16)

/-- THM_SENS[i].VALUE, in 0.1 °C. -/
def State.sensor (s : State) (i : Nat) : Int := ((s.rd (thmA (0x100 + 4 * i))).truncate 16 : BitVec 16).toInt

/-- The median of three. -/
def median3 (a b c : Int) : Int := max (min a b) (min (max a b) c)

/-- The tile temperature of a unit, as of the last sample. -/
def State.tileTemp (s : State) (u : Nat) : Int :=
  let i := tileSensor (unitTile u)
  median3 (s.sensor i) (s.sensor (i + 1)) (s.sensor (i + 2))

/-- CAL_UNIT_STAT[u]. -/
def unitA (u : Nat) : Nat := calA (0x3000 + 4 * u)

/-- A CAL fault of the sequencer. -/
def State.calFault (s : State) (lvl : Nat) : State := s.raise clsCal lvl 8 0 0

/-- A bit of CAL_STAT sets, with its interrupt (R378). -/
def State.calSet (s : State) (i : Nat) : State := (s.put (calA 0x004) i true).iff (!s.tst (calA 0x004) i) (fun s => s.irq 164)

/-- A due unit whose calibration is wanted now (R369, R373). -/
def State.makeDue (s : State) (u : Nat) (asked : Bool) : State :=
  let x := s.unit u
  if x.due ∧ !(asked ∧ x.running) then s
  else s.setUnit u { x with due := true, again := x.again || (asked && x.running) }

/-- R369: the units whose tile has moved beyond CAL_DT since TLAST. -/
def State.calMoves (s : State) : State :=
  let dt := s.rdf (calA 0x008) 0 9
  if dt = 0 then s
  else
    s.each (List.range 1344) (fun s u =>
      if s.dom (unitTile u) ∧ dt < (s.tileTemp u - (s.unit u).tlast).natAbs then s.makeDue u false else s)

/-! Starting and completing (R368, R370–R372) -/

/-- The sequencer may start calibrations: in SUMMER with EN at 1, not after a level-3 reaction; all but MADCs wait for the
reference (R370, R374). -/
def State.calMay (s : State) (kind : Nat) : Bool :=
  s.season = 2 && s.tst (calA 0x008) 31 && s.rdf (fltA 0x000) 0 3 ≠ 3
    && (kind = 2 || (s.seas.refWarm && !s.tst (timeA 0x004) 4 && !s.tst (timeA 0x004) 5))

/-- PB[n]_SI_STAT: STATE and LANE (R172). -/
def State.siState (s : State) (n : Nat) : Nat := s.rdf (pbA n 0x084) 0 3
def State.siLane (s : State) (n : Nat) : Nat := s.rdf (pbA n 0x084) 8 4
def State.setSi (s : State) (n st lane : Nat) : State := (s.wrf (pbA n 0x084) 0 3 st).wrf (pbA n 0x084) 8 4 lane

/-- A unit is free to calibrate (R367, R368). -/
def State.unitFree (s : State) (u : Nat) : Bool :=
  let n := unitBank u
  match unitKind u with
  | 0 => if u % 17 = 16 then s.siState n = 0 else s.siState n = 3 && s.siLane n = u % 17
  | 1 => (s.tdc (unitInst u)).st = .idle
  | 2 => (s.madc n).conv.isNone && (s.madc n).waiting.isEmpty
  | 3 => (s.tx n).st = .idle && (s.tx n).startAt.isNone
  | _ => !s.winOpen n && !(s.acq n).run

/-- CAL_START: a due unit calibrates. A slice in SERVING does so whatever the season (R374); a due stand-in enters
SELFCAL. -/
def opCalStart (u : Nat) (s : State) : State :=
  let x := s.unit u
  let serving : Bool := unitKind u = 0 && u % 17 ≠ 16
  if x.due ∧ !x.running ∧ s.dom (unitDom u) ∧ s.unitFree u ∧ (serving ∨ s.calMay (unitKind u)) then
    (s.setUnit u { x with running := true }).iff (unitKind u == 0 && u % 17 == 16) (fun s =>
      s.setSi (unitBank u) 6 0)
  else s

def execCalStart (u : Fin 1344) (s : State) : Host.Outcome State Fault Refusal := .next (opCalStart u.val s)

/-- CAL_COMPLETE: with `good` false the trims could not reach their target (R372). A slice begins its return. -/
def opCalComplete (u : Nat) (good : Bool) (s : State) : State :=
  let x := s.unit u
  if !x.running then s
  else
    let s := s.setUnit u
      { x with running := false, due := x.again, again := false, tlast := s.tileTemp u, deferred := none,
               changed := x.changed || good, ftime := if good then s.full else x.ftime }
    let s := s.count (calA 0x010) (calA 0x004) 31
    let s := s.iff (unitKind u == 0) (fun s => s.count (calA (0x1000 + 4 * u)) (unitA u) 31)
    let s := s.wr64 (calA 0x018) s.full
    let s := s.iff (!good) (fun s => ((s.put (unitA u) 30 true).calSet 4).calFault 0)
    if unitKind u = 0 then
      (if u % 17 = 16 then s.setSi (unitBank u) 0 0
       else (s.setSi (unitBank u) 4 (u % 17)).modPe (unitBank u) (fun p => { p with siDue := s.now + 6400 }))
    else s

def execCalComplete (u : Fin 1344) (good : Bool) (s : State) : Host.Outcome State Fault Refusal :=
  .next (opCalComplete u.val good s)

/-- REQ (R373). -/
def opReq (p : Path) (s : State) : State :=
  let k := s.rdf (calA 0x00C) 29 3
  let u := s.rdf (calA 0x00C) 0 11
  if s.season ≠ 2 then s.cfgErr p
  else if k = 5 then s.each (List.range 1344) (fun s u => if s.dom (unitDom u) then s.makeDue u true else s)
  else if 1344 ≤ u ∨ unitKind u ≠ k ∨ !s.dom (unitDom u) then s.cfgErr p
  else s.makeDue u true

def execReq (p : Path) (s : State) : Host.Outcome State Fault Refusal := .next (s.host p (calA 0x000) (opReq p))

/-! CALNV (R375–R377) -/

/-- SAVE -/
def opSave (p : Path) (s : State) : State :=
  if s.tst (calA 0x004) 5 ∨ !s.dom 22 then s.cfgErr p else s.put (calA 0x004) 5 true

def execSave (p : Path) (s : State) : Host.Outcome State Fault Refusal := .next (s.host p (calA 0x000) (opSave p))

/-- The working and the factory record of unit u. -/
def State.recW (s : State) (u : Nat) : CalRec := tget (fun _ => {}) s.calW u
def State.recF (s : State) (u : Nat) : CalRec := tget (fun _ => {}) s.calF u

/-- One record is written, or its verification fails. -/
def State.saveUnit (s : State) (u : Nat) (failed : Bool) : State :=
  let x := s.unit u
  if failed then (s.calSet 6).calFault 0
  else
    let r : CalRec := { saved := true, good := true, tcal := x.tlast, saves := min 0xFFFF ((s.recW u).saves + 1), ftime := x.ftime }
    { s.setUnit u { x with changed := false } with calW := tset (fun _ => {}) s.calW u r }

/-- SAVE_DONE: every changed unit's record has been written; those in `failed` failed their verification. -/
def opSaveDone (failed : List (Fin 1344)) (s : State) : State :=
  if !s.tst (calA 0x004) 5 then s
  else
    (s.each s.units (fun s u => if u.2.changed then s.saveUnit u.1 (failed.any (fun f => f.val == u.1)) else s)).put
      (calA 0x004) 5 false

def execSaveDone (failed : List (Fin 1344)) (s : State) : Host.Outcome State Fault Refusal := .next (opSaveDone failed s)

/-- One record is loaded (R376): `bw` and `bf` say that the working and the factory record are bad. -/
def State.loadUnit (s : State) (u : Nat) (bw bf : Bool) : State :=
  let w := s.recW u
  let f := s.recF u
  let apply (s : State) (t : Int) (src dflt : Bool) : State :=
    ((s.setUnit u { s.unit u with tlast := t, changed := false }).put (unitA u) 28 src).put (unitA u) 29 dflt
  if w.saved ∧ w.good ∧ !bw then apply s w.tcal false false
  else
    let s := s.iff w.saved (fun s =>
      ((s.put (calA 0x004) 2 true).count (calA 0x014) (calA 0x004) 30).calFault 0)
    if f.good ∧ !bf then apply s f.tcal true w.saved
    else ((s.calSet 3).calFault 2).put (unitA u) 28 true |>.put (unitA u) 29 w.saved

/-- CAL_LOAD_DONE: every record has been handled, once after each boot. -/
def opCalLoadDone (bw bf : List (Fin 1344)) (s : State) : State :=
  if !s.tst 0x00C 1 ∨ !s.dom 1 ∨ s.tst (calA 0x004) 0 ∨ s.tst (calA 0x004) 3 then s
  else
    let s := s.each (List.range 1344) (fun s u =>
      s.loadUnit u (bw.any (fun i => i.val == u)) (bf.any (fun i => i.val == u)))
    if s.tst (calA 0x004) 3 then s else s.calSet 0

def execCalLoadDone (badWorking badFactory : List (Fin 1344)) (s : State) : Host.Outcome State Fault Refusal :=
  .next (opCalLoadDone badWorking badFactory s)

/-- A write of CAL_CFG (R378). -/
def calCfgSet (p : Path) (v : Word) (s : State) : State :=
  if 500 < fld v 0 9 then s.cfgErr p else s.wr (calA 0x008) (v &&& 0x800001FF)

/-- A write of CAL_CTRL. -/
def State.calCtrl (s : State) (p : Path) (v : Word) : State := (s.iff (bit v 0) (opReq p)).iff (bit v 1) (opSave p)

/-- CAL_STAT and CAL_UNIT_STAT[u] as read. -/
def State.calStat (s : State) : Word := setb (s.rd (calA 0x004)) 1 (s.units.any (fun u => u.2.running))
def State.unitStat (s : State) (u : Nat) : Word :=
  let x := s.unit u
  (s.rd (unitA u) &&& 0xF0000000) ||| BitVec.ofNat 32 (x.due.toNat * 2 ^ 27 + x.running.toNat * 2 ^ 26)
    ||| ((BitVec.ofInt 12 x.tlast).zeroExtend 32)

/-! Handovers (R170–R178) -/

/-- How far the tile of a unit has moved. -/
def State.calMove (s : State) (u : Nat) : Nat := (s.tileTemp u - (s.unit u).tlast).natAbs

/-- A deferred slice is passed over until every other due slice of its bank has been tried since, and 10 ms have passed
(R371). -/
def State.sliceReady (s : State) (n l : Nat) : Bool :=
  (s.unit (17 * n + l)).due &&
    match (s.unit (17 * n + l)).deferred with
    | none => true
    | some t => decide (t + 16000000 ≤ s.now) && (List.range 16).all (fun k =>
        k = l || !(s.unit (17 * n + k)).due || decide (t < (s.unit (17 * n + k)).tried))

/-- The sequencer's choice: the ready slice of bank n with the largest move, the lowest lane on a tie (R371). -/
def State.slicePick (s : State) (n : Nat) : Option Nat :=
  (List.range 16).foldl (fun (b : Option Nat) l =>
    if !s.sliceReady n l then b
    else
      match b with
      | none => some l
      | some k => if s.calMove (17 * n + k) < s.calMove (17 * n + l) then some l else b) none

/-- HANDOVER_REQUEST: the sequencer hands lane l over; a due stand-in calibrates itself first. -/
def opHandover (n l : Nat) (s : State) : State :=
  if s.siState n = 0 ∧ s.dom (8 + n / 8) ∧ s.calMay 0 ∧ !(s.unit (17 * n + 16)).due ∧ s.slicePick n = some l then
    ((s.setSi n 1 l).modPe n (fun p => { p with siReq := s.now, siDue := s.now + 6400 })).modUnit (17 * n + l)
      (fun x => { x with tried := s.now + 1 })
  else s

def execHandoverRequest (n : Fin 64) (l : Fin 16) (s : State) : Host.Outcome State Fault Refusal :=
  .next (opHandover n.val l.val s)

/-- PREPARE_DONE: 6,400 ticks without a change; mirroring begins. -/
def opPrepareDone (n : Nat) (s : State) : State :=
  if s.siState n = 1 ∨ s.siState n = 4 then
    let s := s.advanceTo (s.pe n).siDue
    s.setSi n (s.siState n + 1) (s.siLane n)
  else s

def execPrepareDone (n : Fin 64) (s : State) : Host.Outcome State Fault Refusal := .next (opPrepareDone n.val s)

/-- Outside a timed section, a vector issue, the Starve Vector and a wait in AT, with the PPMU disconnected, a switch may
begin at any tick (R174). -/
def State.switchFree (s : State) (n l : Nat) : Bool :=
  let x := s.eng n
  let inAt : Bool := match x.wait with
    | .atTarget _ _ => true
    | _ => false
  !x.timed && (s.pe n).visRun.isNone && (s.pe n).starveFrom.isNone && !inAt && s.ppmuMode n l = 0

/-- The tick at which a pending switch of lane l ends, where it can take place (R173, R174): in a free window, or in a
vector that brought the quiet run to 8 since mirroring began, where `timed` allows it. -/
def State.switchAt (s : State) (n l : Nat) (timed : Bool) : Option Nat :=
  let x := s.lane (16 * n + l)
  let due := (s.pe n).siDue
  if timed ∧ due ≤ x.q8to ∧ 0 < x.q8to then some (max x.q8from due + 1)
  else if s.switchFree n l then some (max (max s.now (s.eng n).slotAt) due + 1)
  else none

/-- A switch, counted (R173). -/
def State.siSwitch (s : State) (n st : Nat) (timed : Bool) : State :=
  let l := s.siLane n
  let s := (State.vecTo n (fun s => timed && decide ((s.pe n).siDue ≤ (s.lane (16 * n + l)).q8to)) (s.vecLeft n) s).settleStarve n
  match s.switchAt n l timed with
  | some t => ((s.advanceTo t).setSi n st l).count (pbA n 0x08C) (pbA n 0x084) 30
  | none => s

/-- TAKEOVER_SWITCH: in a timed section only with HANDOVER_EN. -/
def opTakeover (n : Nat) (s : State) : State := if s.siState n = 2 then s.siSwitch n 3 (s.tst (pbA n 0x080) 16) else s

def execTakeoverSwitch (n : Fin 64) (s : State) : Host.Outcome State Fault Refusal := .next (opTakeover n.val s)

/-- RETURN_SWITCH: whatever HANDOVER_EN holds; the stand-in is IDLE again. -/
def opReturn (n : Nat) (s : State) : State := if s.siState n = 5 then s.siSwitch n 0 true else s

def execReturnSwitch (n : Fin 64) (s : State) : Host.Outcome State Fault Refusal := .next (opReturn n.val s)

/-- HANDOVER_DEFER: the takeover has not happened CAL_WAIT after the request, or with CAL_WAIT 0 not at the first tick
after PREPARE (R176). -/
def opDefer (n : Nat) (s : State) : State :=
  let w := s.rdf (pbA n 0x080) 0 16
  let l := s.siLane n
  if s.siState n = 2 ∨ (s.siState n = 1 ∧ w ≠ 0) then
    let s := s.advanceTo (if w = 0 then (s.pe n).siDue + 1 else (s.pe n).siReq + 1600 * w)
    ((s.setSi n 0 l).count (pbA n 0x088) (pbA n 0x084) 31).modUnit (17 * n + l) (fun x => { x with deferred := some s.now })
  else s

def execHandoverDefer (n : Fin 64) (s : State) : Host.Outcome State Fault Refusal := .next (opDefer n.val s)

end Sys2Proof.Machine
end

