-- ==== Sys2Proof/Machine/Thermal.lean ====
section
/-! DEFINITION. The thermal manager (chapter 17): samples, the cross-check, thresholds, throttling duty and shutdown. -/

namespace Sys2Proof.Machine

/-- THM_SENS[i]. -/
def sensA (i : Nat) : Nat := thmA (0x100 + 4 * i)

/-- Sensor i is powered (R379). -/
def State.sensOn (s : State) (i : Nat) : Bool :=
  i < 12 || (if i < 36 then s.dom (8 + (i - 12) / 3) else s.dom (16 + (i - 36) / 3))

/-- The neighbours of sensor i (R379). -/
def neighbours (i : Nat) : List Nat :=
  if i < 12 then
    (if i % 6 = 0 then [] else [i - 1]) ++ (if i % 6 = 5 then [] else [i + 1]) ++ [(i + 6) % 12]
  else ((List.range 3).map (fun j => i / 3 * 3 + j)).filter (fun j => j ≠ i)

/-- The median of the good neighbours: of two their mean rounded down, of one itself (R381). -/
def medianOf : List Int → Option Int
  | [] => none
  | [a] => some a
  | [a, b] => some ((a + b) / 2)
  | a :: b :: c :: _ => some (median3 a b c)

/-- What the cross-check makes of one sensor: SUSPECT, DEVRUN, and whether XCHK_LIMIT sets (R381). -/
def crossCheck (reading : Int) (med : Option Int) (devrun : Nat) : Bool × Nat × Bool :=
  let dev : Bool := decide (reading < -400) || decide (1500 < reading) ||
    match med with
    | none => false
    | some m => decide (120 < (reading - m).natAbs)
  if !dev then (false, 0, false)
  else if devrun < 2 then (false, devrun + 1, false)
  else if med.isNone then (false, 2, true)
  else (true, 0, false)

/-- A threshold bit with its hysteresis (R384). -/
def threshold (was : Bool) (t on off : Int) : Bool := if was then decide (off ≤ t) else decide (on ≤ t)

/-- DUTY while THROTTLE is 1 (R385). -/
def dutyOf (t : Int) (span : Nat) : Nat :=
  let d := (256 * ((span : Int) - max 0 (t - 1050))) / (span : Int)
  (max 16 (min 256 d)).toNat

/-- A sticky bit of THM_STAT sets, with its interrupt on vector 1 (R389). -/
def State.thmSet (s : State) (i en : Nat) : State :=
  (s.put (thmA 0x000) i true).iff (!s.tst (thmA 0x000) i && s.tst (thmA 0x014) en) (fun s => s.irq 1)

/-- A THERM fault of the thermal manager. -/
def State.thermFault (s : State) (lvl : Nat) : State := s.raise clsTherm lvl 8 0 0

/-- One sensor's step of the cross-check, its neighbours taken as they stood before the sample. -/
def State.checkSensor (s0 s : State) (rs : List (BitVec 16)) (i : Nat) : State :=
  if !s0.sensOn i then s.wr (sensA i) (setb (s.rd (sensA i) &&& 0x80000000) 30 true)
  else
    let r := rs.getD i 0
    let s := s.wr (sensA i) ((s.rd (sensA i) &&& 0x80030000) ||| r.zeroExtend 32)
    if s0.tst (sensA i) 31 then s
    else
      let good := (neighbours i).filter (fun j => s0.sensOn j && !s0.tst (sensA j) 31)
      let med := medianOf (good.map (fun j => (rs.getD j 0).toInt))
      let (sus, run, lim) := crossCheck r.toInt med (s.rdf (sensA i) 16 2)
      let s := (s.wrf (sensA i) 16 2 run).iff lim (fun s => s.put (thmA 0x000) 6 true)
      s.iff sus (fun s => ((s.put (sensA i) 31 true).thmSet 5 2).thermFault 1)

/-- A SUSPECT sensor shows the highest good neighbour plus 5.0 °C (R382); with no good neighbour the value is free. -/
def State.substitute (s : State) (rs : List (BitVec 16)) (i : Nat) : State :=
  if !s.sensOn i ∨ !s.tst (sensA i) 31 then s
  else
    let good := (neighbours i).filter (fun j => s.sensOn j && !s.tst (sensA j) 31)
    match good.map (fun j => (rs.getD j 0).toInt) with
    | [] => let (v, s) := s.free; s.wrf (sensA i) 0 16 (v.toNat % 2 ^ 16)
    | a :: t => s.wrf (sensA i) 0 16 (BitVec.ofInt 16 (t.foldl max a + 50)).toNat

/-- TMAX and the lowest sensor that holds it (R383). -/
def State.tmax (s : State) : Int × Nat :=
  (List.range 48).foldl (fun (b : Int × Nat) i =>
    if s.sensOn i ∧ b.1 < s.sensor i then (s.sensor i, i) else b) (s.sensor 0, 0)

/-- R388: the predicted time to 125 °C exceeds AUTUMN_BUDGET; a TMAX that does not rise never reaches it. -/
def State.slowRise (s : State) (t : Int) : Bool :=
  match s.thist.getLast? with
  | none => true
  | some (tick, t1) =>
    decide (t ≤ t1) ||
      decide (((s.rdf (thmA 0x004) 16 16 : Nat) : Int) * 1600 * (t - t1) < (1250 - t) * ((s.now - tick : Nat) : Int))

/-- A thermal shutdown (R388). -/
def State.thermalShutdown (s : State) (t : Int) : State :=
  let stop (s : State) : State := (s.modSeas (fun x => { x with aon := t })).immediateStop 4
  if s.season = 3 then (if 1250 ≤ t then stop (s.thermFault 0) else s)
  else if t < 1200 then s
  else if s.season = 1 ∨ s.season = 2 then
    (if s.slowRise t then ((s.thermFault 0).modSeas (fun x => { x with aon := t })).autumn 3 0 else stop (s.thermFault 0))
  else stop (s.thermFault 0)

/-- The thresholds and the duty (R384, R385). -/
def State.thresholds (s : State) (t : Int) : State :=
  let warn := threshold (s.tst (thmA 0x000) 0) t 950 920
  let thr := threshold (s.tst (thmA 0x000) 1) t 1050 1020
  let s := s.iff (warn && !s.tst (thmA 0x000) 0) (fun s => (s.thmSet 3 0).thermFault 0)
  let s := s.iff (thr && !s.tst (thmA 0x000) 1) (fun s => (s.thmSet 4 1).thermFault 0)
  let s := ((s.put (thmA 0x000) 0 warn).put (thmA 0x000) 1 thr).put (thmA 0x000) 2 (decide (900 ≤ t))
  s.wr (thmA 0x00C) (BitVec.ofNat 32 (if thr then dutyOf t (s.rdf (thmA 0x004) 0 9) else 256))

/-- THERMAL_SAMPLE: 1 ms after the last sample, or 50 µs in FAST (R380–R385, R388), with the units it makes due (R369). -/
def opThermalSample (rs : List (BitVec 16)) (s : State) : State :=
  if !s.dom 1 then s
  else
    let s := match s.thist with
      | [] => s
      | (last, _) :: _ => s.advanceTo (last + if s.tst (thmA 0x000) 2 then 80000 else 1600000)
    let s := s.each (List.range 48) (fun t i => s.checkSensor t rs i)
    let s := s.each (List.range 48) (fun t i => t.substitute rs i)
    let (t, i) := s.tmax
    let s := (s.wr (thmA 0x008) (BitVec.ofNat 32 (i * 2 ^ 16 + (BitVec.ofInt 16 t).toNat))).thresholds t
    let s := { s with thist := ((s.now, t) :: s.thist).take 8 }
    s.calMoves.thermalShutdown t

def execThermalSample (readings : List (BitVec 16)) (s : State) : Host.Outcome State Fault Refusal :=
  if readings.length = 48 then .next (opThermalSample readings s) else .fault (.illFormed "THERMAL_SAMPLE")

/-- SUSPECT_CLEAR: the sensor is in service again at the next sample, DEVRUN 0 (R382). -/
def opSuspectClear (i : Nat) (s : State) : State := (s.put (sensA i) 31 false).wrf (sensA i) 16 2 0

def execSuspectClear (p : Path) (i : Fin 48) (s : State) : Host.Outcome State Fault Refusal :=
  .next (s.host p (sensA i.val) (opSuspectClear i.val))

/-- A write of THM_CFG (R389). -/
def thmCfgSet (p : Path) (v : Word) (s : State) : State :=
  if fld v 0 9 < 20 ∨ 500 < fld v 0 9 then s.cfgErr p else s.wr (thmA 0x004) (v &&& 0xFFFF01FF)

end Sys2Proof.Machine
end

