-- ==== Sys2Proof/Machine/Mcs.lean ====
section
/-! DEFINITION. Signed images and the Microcode Store (R310–R320), and the host's part in the boot (R360). -/

namespace Sys2Proof.Machine

/-- What tells a kind of image (R314, R361): its MAGIC, the most code words, and where they begin. -/
structure ImageKind where
  magic : Nat
  maxWords : Nat
  code : Nat
  deriving DecidableEq, Repr

def mcsImage : ImageKind := ⟨0x31434D46, 4096, 0x840⟩
def fwImage : ImageKind := ⟨0x31495746, 65536, 0x40⟩

/-- NWORDS. -/
def imgWords (b : List Byte) : Nat := leAt b 0x18 4

/-- The length that NWORDS gives: header and table, code, 112 bytes of key, 96 of signature. -/
def imgLen (k : ImageKind) (b : List Byte) : Nat := k.code + 16 * imgWords b + 208

/-- The bytes that are signed, the 97 key bytes, and the signature. -/
def imgSigned (k : ImageKind) (b : List Byte) : List Byte := b.take (k.code + 16 * imgWords b)
def imgKey (k : ImageKind) (b : List Byte) : List Byte := (b.drop (k.code + 16 * imgWords b)).take 97
def imgSig (k : ImageKind) (b : List Byte) : List Byte := (b.drop (k.code + 16 * imgWords b + 112)).take 96

/-- The entry table's addresses: [15:12] are 0, and a defined pair's lies below NWORDS (R314). -/
def entriesOk (b : List Byte) : Bool :=
  (List.range 1024).all (fun i =>
    let a := leAt b (0x40 + 2 * i) 2
    decide (a < 4096) && ((fieldsOf (i / 64) (i % 64)).isNone || decide (a < imgWords b)))

/-- Check 1 of R317. -/
def formOk (k : ImageKind) (b : List Byte) : Bool :=
  decide (0x40 ≤ b.length) && leAt b 0 4 = k.magic && leAt b 4 2 = 1 && leAt b 6 2 = 64 && leAt b 0x0B 1 = 0
    && decide (1 ≤ imgWords b) && decide (imgWords b ≤ k.maxWords) && leAt b 0x1E 34 = 0
    && decide (b.length = imgLen k b) && leAt b (k.code + 16 * imgWords b) 1 = 4
    && leAt b (k.code + 16 * imgWords b + 97) 15 = 0 && (k.code ≠ 0x840 || entriesOk b)

/-- The key hash of R315: word k of MCS_KEYHASH is the hash's bytes 4k to 4k + 3. -/
def keyOk (key : List Byte) : Bool :=
  (List.range 12).all (fun i => ((Config.sha384 key) >>> (352 - 32 * i)).truncate 32 = Config.keyHash i)

/-- The signature of R315. -/
def sigOk (k : ImageKind) (b : List Byte) : Bool :=
  Config.ecdsaP384 (imgKey k b) (Config.sha384 (imgSigned k b)) (imgSig k b)

/-- The first check of R317 that an image fails, by its CAUSE; 0 is none. `ue` says that copying met an uncorrectable HBM
error. -/
def imageCause (k : ImageKind) (b : List Byte) (ue : Bool) : Nat :=
  if !formOk k b then 1
  else if leAt b 0x10 4 ≠ Config.glbId.toNat ∨ leAt b 0x14 4 ≠ Config.glbStep.toNat then 2
  else if !keyOk (imgKey k b) then 3
  else if !sigOk k b then 4
  else if leAt b 0x1C 2 < Config.svnMinimum.toNat then 5
  else if ue then 6 else 0

/-- `n` bytes of HBM from an address upward, where its stack is READY and holds them all. -/
def State.hbmBytes (s : State) (a n : Nat) : Option (List Byte) :=
  if s.tst 0x1004 (stackOf a) ∧ (n = 0 ∨ stackOf (a + n - 1) = stackOf a) then some (s.hbmGet a n) else none

/-- LOAD and RELOAD are accepted (R316). -/
def State.mcsFree (s : State) : Bool := s.enginesStopped && !s.tst (mcsA 0x004) 0

/-- The image address. -/
def State.imgBase (s : State) : Nat := (s.rd64 (mcsA 0x010)).toNat % 2 ^ 36 / 64 * 64

/-- MCS_LOAD: the Supervisor takes its copy. -/
def opMcsLoad (p : Path) (s : State) : State :=
  if s.mcsFree then
    { s with mcsJob := 1, mcsBuf := s.hbmBytes s.imgBase (s.rdf (mcsA 0x018) 0 17) }.put (mcsA 0x004) 0 true
  else s.cfgErr p

def execMcsLoad (p : Path) (s : State) : Host.Outcome State Fault Refusal := .next (s.host p (mcsA 0x000) (opMcsLoad p))

/-- RELOAD -/
def opReload (p : Path) (s : State) : State := if s.mcsFree then s.mcsVerify else s.cfgErr p

def execReload (p : Path) (s : State) : Host.Outcome State Fault Refusal := .next (s.host p (mcsA 0x000) (opReload p))

/-- A write of MCS_CTRL: with both bits only LOAD acts (R325). -/
def State.mcsCtrl (s : State) (p : Path) (v : Word) : State :=
  if bit v 0 then opMcsLoad p s else if bit v 1 then opReload p s else s

/-- A refusal: SIG_FAIL and CAUSE (R318, R320). -/
def State.mcsRefuse (s : State) (cause : Nat) : State :=
  ((s.put (mcsA 0x004) 31 true).wrf (mcsA 0x004) 8 4 cause).raise clsCfg 0 8 0 0

/-- Every replica holds the ROM image (R319). -/
def State.mcsRom (s : State) : State :=
  ((({ s with mcsCopy := none }.put (mcsA 0x004) 1 false).wr (mcsA 0x008) 0x01000000).wr (mcsA 0x00C) 0).wrf (mcsA 0x01C) 16 16 0

/-- A load's end (R317, R318). -/
def State.mcsLoaded (s : State) (ue readBackOk : Bool) : State :=
  let c := match s.mcsBuf with
    | none => 6
    | some b => imageCause mcsImage b ue
  if c ≠ 0 then s.mcsRefuse c
  else if !readBackOk then s.mcsRom.mcsRefuse 7
  else
    let b := s.mcsBuf.getD []
    ((({ s with mcsCopy := some b }.put (mcsA 0x004) 1 true).wr (mcsA 0x008)
      (BitVec.ofNat 32 (leAt b 8 1 * 2 ^ 24 + leAt b 9 1 * 2 ^ 16 + leAt b 10 1 * 2 ^ 8))).wr (mcsA 0x00C)
        (BitVec.ofNat 32 (leAt b 0x0C 4))).wrf (mcsA 0x01C) 16 16 (leAt b 0x1C 2)

/-- A copy taken of HBM bytes from `a` on, after the code's verdict on one of its words, whichever it was (R329, R331): the
word is counted, and a wrong word that was not seen for what it is stands in the copy. -/
def State.copyRead (s : State) (a : Nat) (b : List Byte) (e : HbmEcc) : List Byte × State :=
  if e = .ok ∨ b.length < 8 then (b, s)
  else
    let (i, s) := s.free
    let w := i.toNat % (b.length / 8)
    let (v, s) := s.hbmRead (a + 8 * w) e
    (if e = .miscorrected ∨ e = .undetected then b.take (8 * w) ++ bytesOf 8 v.toNat ++ b.drop (8 * w + 8) else b, s)

/-- The copy of an image meets the verdict of the code. -/
def State.mcsSeen (s : State) (e : HbmEcc) : State :=
  match s.mcsBuf with
  | none => s
  | some b => let (b, s) := s.copyRead s.imgBase b e; { s with mcsBuf := some b }

/-- MCS_LOAD_DONE: a load, a reload or a re-verification ends. In a re-verification `readBackOk` false says that the
verified copy no longer passes R315 (R320). -/
def opMcsDone (ecc : HbmEcc) (readBackOk : Bool) (s : State) : State :=
  if !s.tst (mcsA 0x004) 0 then s
  else
    let s := if s.mcsJob = 1 then (s.mcsSeen ecc).mcsLoaded (isUe ecc) readBackOk
      else if s.mcsCopy.isSome ∧ !readBackOk then s.mcsRom.mcsRefuse 8 else s
    { s with mcsJob := 0, mcsBuf := none }.put (mcsA 0x004) 0 false

def execMcsLoadDone (ecc : HbmEcc) (readBackOk : Bool) (s : State) : Host.Outcome State Fault Refusal :=
  .next (opMcsDone ecc readBackOk s)

/-- A write of MCS_IMG_BASE or MCS_IMG_LEN while BUSY (R325). -/
def State.imgBusy (s : State) : Bool := s.tst (mcsA 0x004) 0

/-- HOST_GO: only in WAIT_HOST (R360). -/
def opHostGo (p : Path) (s : State) : State :=
  if s.rdf 0x040 0 3 = 2 ∧ s.dom 1 then (s.put 0x040 4 true).wrf 0x040 0 3 3 else s.cfgErr p

def execHostGo (p : Path) (s : State) : Host.Outcome State Fault Refusal := .next (s.host p 0x044 (opHostGo p))

end Sys2Proof.Machine
end

