-- ==== Sys2Proof/Machine/Bus.lean ====
section
/-! DEFINITION. Every register as a read or a write of any path finds it (R6–R14, R402–R405, R452, R453): the plain access
types first, then, block by block, the registers whose reads are computed or whose writes act. -/

namespace Sys2Proof.Machine

/-! Plain registers -/

/-- The pair whose _LO is at `a`, both halves at one instant (R11, R432). -/
def State.pairNow (s : State) (a : Nat) : Word64 :=
  if a = timeA 0x010 then s.full
  else if a = decA 0x060 then s.vscNow.zeroExtend 64
  else if a = fltA 0x020 then join64 (s.holdBits 32) (s.holdBits 0)
  else s.rd64 a

/-- A read that only returns the register (R8, R11). -/
def State.plainRead (s : State) (p : Path) (a : Nat) (r : Row) : Word × State :=
  if r.half = 1 then (loHalf (s.pairNow a), s.setLatch p (hiHalf (s.pairNow a)))
  else if r.half = 2 then (s.getLatch p, s)
  else (s.rd a, s)

/-- The bits a write reaches of the register at `a`. -/
def maskOf (a : Nat) : Word :=
  match rowAt (rowsOf (blkOf a).1) (blkOf a).2 with
  | some (r, _) => BitVec.ofNat 32 r.rw
  | none => 0

/-- A write of an event counter: zero clears the count and its _SAT bit, any other value is ignored (R13). `k` is the row's
instance and `base` its block. -/
def State.countClear (s : State) (base a k : Nat) (c : Sat) (v : Word) : State :=
  if v = 0 then (s.wr a 0).put (base + c.off + c.step * k) (c.bit + c.bstep * k) false else s

/-- A write that only sets and clears bits (R7, R8, R12, R13). -/
def State.plainWrite (s : State) (p : Path) (a : Nat) (r : Row) (k : Nat) (v : Word) : State :=
  match r.cnt with
  | some c => s.countClear (a - (blkOf a).2) a k c v
  | none =>
    if r.rw = 0 ∧ r.w1c = 0 then s
    else if r.half = 1 then s.holdLo p a (some v)
    else if r.half = 2 then
      let w := s.pairOf p (a - 4) v
      ((s.wr (a - 4) (loHalf w &&& maskOf (a - 4))).wr a (v &&& maskOf a)).holdLo p (a - 4) none
    else
      let m := BitVec.ofNat 32 r.rw
      s.wr a (((s.rd a &&& ~~~m) ||| (v &&& m)) &&& ~~~(v &&& BitVec.ofNat 32 r.w1c))

/-- A write that acts only while a condition holds: refused where it fails, else the plain write. -/
def State.allow (s : State) (p : Path) (ok : Bool) : Option State := if ok then none else some (s.cfgErr p)

/-! GLB (R366, R342, R408, R425) -/

def State.glbGet (s : State) (o : Nat) : Option Word :=
  if o = 0x008 then some (BitVec.ofNat 32 s.glbLock.toNat)
  else if o = 0x00C then some (setb (s.rd o) 4 s.wakeHeld)
  else none

def State.glbSet (s : State) (p : Path) (o : Nat) (v : Word) : Option State :=
  if o = 0x008 then some (s.iff (bit v 0) (fun s => { s with glbLock := true }))
  else if o = 0x014 then some (s.seasonCmd p v)
  else if o = 0x020 then some (opPwrEn p v s)
  else if o = 0x034 then some (s.iff (bit v 0) opWake)
  else if o = 0x044 then some (s.iff (bit v 0) (opHostGo p))
  else if o = 0x1000 then some (opInit p (BitVec.ofNat 4 (fld v 0 4)) s)
  else if 0x1010 ≤ o ∧ o < 0x1020 ∧ v = 0 then
    some ({ (s.wr o 0) with ceFired := setb s.ceFired ((o - 0x1010) / 4) false }.put 0x1004 (28 + (o - 0x1010) / 4) false)
  else if 0x3000 ≤ o ∧ o < 0x4000 ∧ o % 16 = 12 then some ((s.wr o (v &&& 1)).msixFlush)
  else none

/-! TIME (R53) -/

/-- RESYNC_ARMED: a host resync is armed. -/
def State.hostArmed (s : State) : Bool := s.armed.any (fun r => r.epoch.isNone)

def State.timeGet (s : State) (o : Nat) : Option Word :=
  if o = 0x000 then some (BitVec.ofNat 32 s.hostArmed.toNat)
  else if o = 0x004 then
    some ((s.rd (timeA o) &&& 0x302B9) ||| BitVec.ofNat 32 (s.seas.refsel.toNat * 2 ^ 10 + s.hostArmed.toNat * 2 ^ 8
      + (decide (s.epoch ≠ 0)).toNat * 2 ^ 6 + s.seas.refWarm.toNat * 2 ^ 2))
  else none

def State.timeSet (s : State) (p : Path) (o : Nat) (v : Word) : Option State :=
  if o = 0x000 then some (if bit v 1 then opCancel s else s.iff (bit v 0) (opResync p))
  else if o = 0x008 then s.allow p (decide (fld v 0 2 ≤ 1))
  else none

/-! DEC (R277) -/

def State.decGet (s : State) (p : Path) (o : Nat) : Option (Word × State) :=
  if o = 0x004 then some (s.decStat, s)
  else if o = 0x00C then some (s.cfgSig.zeroExtend 32, s)
  else if o = 0x098 then some (msgGet p s)
  else if o = 0x0A0 then some (s.msgStat, s)
  else if 0x100 ≤ o ∧ o % 32 = 0 then some (s.klStat ((o - 0x100) / 32), s)
  else none

def State.decSet (s : State) (p : Path) (o : Nat) (v : Word) : Option State :=
  if o = 0x000 then some (s.decCtrl p v)
  else if o = 0x008 then some (decCfgSet p v s)
  else if 0x010 ≤ o ∧ o < 0x020 then s.allow p (s.decWritable none)
  else if 0x020 ≤ o ∧ o < 0x060 then some (decLvSet p ((o - 0x020) / 4) v s)
  else if o = 0x094 then some (msgSet p v s)
  else none

/-! DMA (R342) -/

/-- DMA[e]_STAT: STOPPED, and the channel served. -/
def State.dmaStat (s : State) (d : Nat) : Word :=
  match (List.range 16).find? (fun c => (s.chan (chKey d c)).st = .active) with
  | some c => (s.rd (dmaA d 0x004) &&& 0x100) ||| BitVec.ofNat 32 (16 + c)
  | none => s.rd (dmaA d 0x004) &&& 0x100

def State.dmaGet (s : State) (d o : Nat) : Option Word :=
  if o = 0x004 then some (s.dmaStat d)
  else if 0x100 ≤ o ∧ o % 64 = 4 then
    let k := chKey d ((o - 0x100) / 64)
    some (putf (s.rd (dmaA d o)) 0 3 (s.chan k).st.code)
  else none

def State.dmaSet (s : State) (p : Path) (d o : Nat) (v : Word) : Option State :=
  if o = 0x000 then some (s.iff (bit v 0) (opDmaReset p d))
  else if 0x100 ≤ o ∧ o % 64 = 0 then some (s.chCtrl p d ((o - 0x100) / 64) v)
  else none

/-! SER (R426) -/

/-- A read of the flash window by a path that has no operand for it: a free value (log 20). -/
def State.xipWord (s : State) (w : Nat) : Word × State :=
  let (v, s) := s.free
  (loHalf v, s.emit (.flash ((0x03 : Byte) :: flashAddr (s.xipAddr w))))

def State.serGet (s : State) (o : Nat) : Option (Word × State) :=
  if o = 0x008 then some (setb (s.rd (serA o)) 0 s.chn.selected, s)
  else if o = 0x118 then some (s.xipStatus, s)
  else if 0x8000 ≤ o then some (s.xipWord ((o - 0x8000) / 4))
  else none

/-- R411: CHAIN_LEN is 16 to 4,096. -/
def chnLenOk (v : Word) : Bool := decide (16 ≤ fld v 0 13) && decide (fld v 0 13 ≤ 4096)

def State.serSet (s : State) (p : Path) (o : Nat) (v : Word) : Option State :=
  if o = 0x000 then s.allow p (chnLenOk v)
  else if o = 0x100 then some (s.cardCtrl p v)
  else if o = 0x104 then s.allow p (decide (1 ≤ fld v 0 7) && decide (fld v 0 7 ≤ 99))
  else if o = 0x114 then some (s.xipErase p v)
  else if 0x8000 ≤ o then some (s.xipWrite p ((o - 0x8000) / 4) v)
  else none

/-! Engines (R83) -/

def State.engGet (s : State) (p : Path) (e o : Nat) : Option (Word × State) :=
  if o = 0x004 then some (s.engStat e, s)
  else if o = 0x00C then some (s.engPc e, s)
  else if o = 0x014 then some (s.sigRead e)
  else if o = 0x020 then
    some ((s.eng e).tags.foldl (fun (v : Word) t => setb v t.1 true) 0, s)
  else if 0x100 ≤ o ∧ o < 0x280 then some (s.imageRead p e o)
  else none

def State.engSet (s : State) (p : Path) (e o : Nat) (v : Word) : Option State :=
  if o = 0x000 then some (s.engCtrl p e v)
  else if o = 0x004 then some (s.engStatSet e v)
  else if 0x100 ≤ o ∧ o < 0x280 then some (s.imageWrite p e o v)
  else none

/-! Pattern Engines (R145–R151, R168, R182–R194, R325) -/

def State.peGet (s : State) (p : Path) (n o : Nat) : Option (Word × State) :=
  if o < 0x280 then s.engGet p n o
  else if o = 0x1024 then some (s.sitesGet p n)
  else if o = 0x1028 then some (s.vstat n, s)
  else if o = 0x1C1C then some (setb (s.rd (peA n o)) 0 (s.ringFull n), s)
  else none

/-- Whether PE n is STOPPED. -/
def State.peStopped (s : State) (n : Nat) : Bool := (s.eng n).st = .stopped

/-- RAU_CFG, RAU_GEOM, RAU_NODELIM, RAU_CMD and RAU_RES_BASE of site k. -/
def State.rauRegSet (s : State) (p : Path) (k r : Nat) (v : Word) : Option State :=
  if r = 0x0C then some (s.rauCmd p k v)
  else if 0x18 ≤ r then none
  else if !s.peStopped (k / 4) ∨ (r = 0 ∧ !rauCfgOk v) ∨ (r = 4 ∧ !rauGeomOk v) then some (s.rauErr p k)
  else if r = 8 then s.allow p (v ≠ 0)
  else none

/-- The registers of a PE from 0x1000 to 0x13FF. -/
def State.vecRegSet (s : State) (p : Path) (n o : Nat) (v : Word) : Option State :=
  if o = 0x1014 then some ((s.starveSet p n (s.pairOf p (peA n 0x1010) v)).holdLo p (peA n 0x1010) none)
  else if o = 0x1020 then s.allow p (s.peStopped n)
  else if o = 0x1024 then some (s.sitesSet p n v)
  else if 0x1100 ≤ o ∧ o < 0x1180 then s.allow p (s.imageOk n)
  else if 0x1180 ≤ o ∧ o < 0x11C0 then some (s.scrSet p n ((o - 0x1180) / 4) v)
  else if 0x1200 ≤ o then some (s.lmapSet p n ((o - 0x1200) / 64) ((o - 0x1200) % 64 / 4) v)
  else none

/-- The registers of a PE from 0x1C00 to 0x1FFF. -/
def State.capRegSet (s : State) (p : Path) (n o : Nat) (v : Word) : Option State :=
  if o = 0x1C08 then some (s.fringSizeSet p n v)
  else if o = 0x1C10 then some (s.fringRdSet p n v)
  else if o = 0x1C14 then some (s.iff (bit v 0) (fun s => s.ringReset p n))
  else if o = 0x1C18 then s.allow p (s.peStopped n)
  else if o = 0x1C2C then some (s.each (List.range 4) (fun s k => s.iff (bit v k) (opBmpClear p n k)))
  else if 0x1D00 ≤ o then s.allow p (s.peStopped n && (o % 16 ≠ 8 || bmpCfgOk v))
  else none

def State.peSet (s : State) (p : Path) (n o : Nat) (v : Word) : Option State :=
  if o < 0x280 then s.engSet p n o v
  else if o < 0x1400 then s.vecRegSet p n o v
  else if 0x1800 ≤ o ∧ o < 0x1A00 then s.allow p (!s.fmtBusy n)
  else if o = 0x1A00 then some (s.fmtCmd p n v)
  else if 0x1C00 ≤ o ∧ o < 0x2000 then s.capRegSet p n o v
  else if 0x2000 ≤ o then s.rauRegSet p (4 * n + (o - 0x2000) / 64) (o % 64) v
  else none

/-! Pin Banks (R158, R179, R299, R308) -/

/-- PIN_STAT[l]: the trips, QUIET8, MIRROR, STANDIN and DRV_ON. -/
def State.pinStat (s : State) (n l : Nat) : Word :=
  let st := s.siState n
  let here : Bool := s.siLane n = l
  (s.rd (pinA n l) &&& 0x300) ||| BitVec.ofNat 32 ((decide (8 ≤ (s.lane (16 * n + l)).quiet)).toNat * 8
    + (here && (st == 2 || st == 5)).toNat * 4 + (here && (decide (3 ≤ st))).toNat * 2 + (s.drvOn n l).toNat)

/-- MADC_STAT: REF_SETTLED as stored, WAITING and BUSY. -/
def State.madcStat (s : State) (n : Nat) : Word :=
  (s.rd (pbA n 0x1004) &&& 0xC000000C) ||| BitVec.ofNat 32 ((!(s.madc n).waiting.isEmpty).toNat * 2
    + (s.madc n).conv.isSome.toNat)

/-- TDC[t]_STAT. -/
def State.tdcStat (s : State) (k : Nat) : Word :=
  let code : Nat := match (s.tdc k).st with
    | .idle => 0 | .armed => 1 | .started => 2 | .done => 3
  BitVec.ofNat 32 ((s.tdc k).waiter.isSome.toNat * 4 + code)

def State.pbGet (s : State) (p : Path) (n o : Nat) : Option (Word × State) :=
  if 0x040 ≤ o ∧ o < 0x080 then some (s.pinStat n ((o - 0x040) / 4), s)
  else if 0x840 ≤ o ∧ o < 0x880 then
    some (setb (s.rd (pbA n o)) 16 (decide (s.now < s.settleAt (16 * n + (o - 0x840) / 4))), s)
  else if o = 0x888 then some (setb (s.rd (pbA n o)) 29 s.seas.lvlclr, s)
  else if o = 0x1004 then some (s.madcStat n, s)
  else if o = 0x1014 then some (madcDataVal n s)
  else if 0x1200 ≤ o ∧ o < 0x1300 ∧ o % 8 = 0 then some (madcResVal p n ((o - 0x1200) / 8) s)
  else if 0x1400 ≤ o then
    let k := 2 * n + (o - 0x1400) / 64
    if o % 64 = 0x04 then some (s.tdcStat k, s)
    else if o % 64 = 0x28 then some (tdcResVal p k s)
    else if o % 64 = 0x30 then some (BitVec.ofNat 32 (s.tdc k).count, s)
    else none
  else none

/-- MADC_CTRL: ENTRY and MODE, then RUN and KICK (R295, R298). -/
def State.madcCtrl (s : State) (n : Nat) (v : Word) : State :=
  (opRun n (bit v 0) ((s.wrf (pbA n 0x1000) 8 5 (fld v 8 5)).put (pbA n 0x1000) 1 (bit v 1))).iff (bit v 2)
    (opKick n (Fin.ofNat 32 (fld v 8 5)))

/-- R299: MADC_IMM. -/
def immOk (v : Word) : Bool := decide (fld v 11 2 ≠ 3) && decide (fld v 4 4 ≤ 8) && decide (fld v 0 4 ≤ 8)

/-- R301, R308: TDC[t]_CFG. -/
def tdcCfgOk (v : Word) : Bool :=
  decide (fld v 29 2 ≠ 3) && decide (fld v 21 2 ≠ 3) && !(fld v 29 2 == 1 && decide (2 ≤ fld v 27 2))
    && !(fld v 21 2 == 1 && decide (2 ≤ fld v 19 2)) && fld v 0 15 == 0 && !(bit v 31 && fld v 21 2 == 2)

/-- The registers of TDC t. -/
def State.tdcRegSet (s : State) (p : Path) (n t r : Nat) (v : Word) : Option State :=
  if r = 0 then
    some (if bit v 1 then s.tdcCancel n t else s.iff (bit v 0) (fun s => s.tdcArmOr n t (fun s => s.cfgErr p)))
  else if 0x08 ≤ r ∧ r < 0x28 then s.allow p (decide ((s.tdc (2 * n + t)).st = .idle) && (r != 8 || tdcCfgOk v))
  else none

def State.pbSet (s : State) (p : Path) (n o : Nat) (v : Word) : Option State :=
  if o < 0x040 then some (s.laneCfgSet p n (o / 4) v)
  else if 0x400 ≤ o ∧ o < 0x800 then some (s.lvlWrite n ((o - 0x400) / 64) ((o - 0x400) % 64 / 4) (v.truncate 16))
  else if 0x800 ≤ o ∧ o < 0x840 then some (s.laneWrite p n ((o - 0x800) / 4) v)
  else if 0x840 ≤ o ∧ o < 0x880 then some (opPpmuWrite p n ((o - 0x840) / 4) v s)
  else if o = 0xC00 then some (opSmuCfgWrite p n v s)
  else if o = 0xC08 then some (opSmuClampWrite p n v s)
  else if o = 0x1000 then some (s.madcCtrl n v)
  else if o = 0x1010 then s.allow p (immOk v)
  else if 0x1100 ≤ o ∧ o < 0x1200 ∧ o % 8 = 4 then some (opMseqCommit p n ((o - 0x1100) / 8) v s)
  else if 0x1400 ≤ o then s.tdcRegSet p n ((o - 0x1400) / 64) (o % 64) v
  else none

/-! RF ports (R230, R231, R254) -/

/-- TX[n]_STAT and MKSTAT. -/
def State.txStat (s : State) (n : Nat) : Word :=
  let x := s.tx n
  let code : Nat := match x.st with
    | .idle => 0 | .playing => 1 | .waiting => 2 | .muted => 3
  (s.rd (txStatA n) &&& 0xC00007E0) ||| BitVec.ofNat 32 ((x.req.isSome || x.stopReq.isSome).toNat * 16
    + x.anchorPend.toNat * 8 + ((x.st = .playing || x.st = .waiting) && s.stepMode n).toNat * 4 + code)
def State.mkStat (s : State) (n : Nat) : Word :=
  (List.range 4).foldl (fun (v : Word) m => setb v m (s.marker n m (15 * s.now)))
    (BitVec.ofNat 32 (((s.txDue n (15 * s.now + 1)).tx n).ovr.toNat * 16))

/-- RX[n]_STAT. -/
def State.rxStat (s : State) (n : Nat) : Word :=
  let a := s.acq n
  let armed := (List.range 4).foldl (fun (v : BitVec 4) u => setb v u ((s.rx n).unit u).armed) 0
  (s.rd (rxA n 0x4004) &&& 0xF80001B8) ||| BitVec.ofNat 32 ((s.rx n).fifo.length * 2 ^ 18 + armed.toNat * 2 ^ 14
    + a.holdEnd.isSome.toNat * 2 ^ 13 + a.cfgNum.val * 2 ^ 10 + a.run.toNat * 2 ^ 9 + (s.aqFull n).toNat * 2 ^ 6
    + (s.tx n).anchorPend.toNat * 4 + a.demod.toNat * 2 + (s.winOpen n).toNat)

def State.rfGet (s : State) (p : Path) (n o : Nat) : Option (Word × State) :=
  if o = 0x004 then some (s.txStat n, s)
  else if o = 0x00C then some (BitVec.ofNat 32 ((s.tx n).plays % 2 ^ 16 * 2 ^ 10 + (s.tx n).seg.toNat), s)
  else if 0x020 ≤ o ∧ o < 0x0A0 ∧ o % 16 ≠ 4 then some (s.toneGet n o, s.iff (o % 16 = 0) (fun s => s.setLatch p (s.toneGet n (o + 4))))
  else if o = 0x0D0 then some (s.mkStat n, s)
  else if o = 0x108 then some (s.tabLo p n false)
  else if o = 0x10C then some (s.tabAccess p n false none)
  else if o = 0x4004 then some (s.aqSettle n |>.rxStat n, s.aqSettle n)
  else if 0x4020 ≤ o ∧ o < 0x4040 then some (s.resData p n ((o - 0x4020) / 4))
  else if o = 0x4408 then some (s.tabLo p n true)
  else if o = 0x440C then some (s.tabAccess p n true none)
  else none

/-- TX[n]_CTRL: the highest command set (R230). -/
def State.txCtrl (s : State) (p : Path) (n : Nat) (v : Word) : State :=
  if bit v 2 then s.txSend p n .stopNow
  else if bit v 3 then s.txSend p n .stopEnd
  else if bit v 1 then s.txSend p n (.play (s.startSeg n) true)
  else if bit v 0 then s.txSend p n (.play (s.startSeg n) false)
  else if bit v 5 then s.txSend p n (.jump (s.jumpSeg n))
  else if bit v 4 then s.txSend p n .step
  else s

/-- RX[n]_CTRL, bit by bit from the lowest (R254). -/
def State.rxCtrl (s : State) (p : Path) (n : Nat) (v : Word) : State :=
  let s := s.iff (bit v 1) (fun s => s.aqStopAt n (s.rxLater n))
  let s := s.iff (bit v 2) (fun s => s.resFlush n)
  let s := s.iff (bit v 3) (fun s => s.aqRingReset p n)
  s.iff (fld v 4 4 ≠ 0) (fun s => s.armHost n (BitVec.ofNat 4 (fld v 4 4)))

def State.txSet (s : State) (p : Path) (n o : Nat) (v : Word) : Option State :=
  if o = 0x000 then some (s.txCtrl p n v)
  else if o = 0x008 then some (s.txCfgSet n v)
  else if 0x020 ≤ o ∧ o < 0x0A0 then some (s.toneSet p n (Fin.ofNat 8 ((o - 0x020) / 16)) (o % 16 / 4) v)
  else if 0x0C0 ≤ o ∧ o < 0x0D0 then some (s.mkrouteSet p n (Fin.ofNat 4 ((o - 0x0C0) / 4)) v)
  else if o = 0x100 then some (s.tabSel p n false v)
  else if o = 0x10C then some (s.tabAccess p n false (some v)).2
  else none

def State.rxSet (s : State) (p : Path) (n o : Nat) (v : Word) : Option State :=
  if o = 0x4000 then some (s.rxCtrl p n v)
  else if o = 0x4008 then some (s.rxCfgSet p n v)
  else if 0x4040 ≤ o ∧ o < 0x40C0 then
    some (if o % 16 = 12 then s.demodWinSet p n ((o - 0x4040) / 16) v
      else s.demodSet p n ((o - 0x4040) / 16) (o % 16 / 4) v)
  else if 0x4100 ≤ o ∧ o < 0x4200 then some (s.discSet n o (v &&& maskOf (rxA n o)))
  else if 0x4200 ≤ o ∧ o < 0x4288 then (s.aqSettle n).allow p (!(s.aqSettle n |>.acq n).run)
  else if o = 0x4288 then some (s.aqSizeSet p n v)
  else if o = 0x4290 then s.allow p (decide (fld v 0 27 < s.aqN n))
  else if 0x4300 ≤ o ∧ o < 0x4340 then some (s.trigSet p n ((o - 0x4300) / 16) (o % 16 / 4) v)
  else if o = 0x4400 then some (s.tabSel p n true v)
  else if o = 0x440C then some (s.tabAccess p n true (some v)).2
  else none

/-! Every block -/

/-- A computed read. -/
def State.specialRead (s : State) (p : Path) (a : Nat) : Option (Word × State) :=
  let pure (r : Option Word) : Option (Word × State) := r.map (fun v => (v, s))
  match blkOf a with
  | (.glb, o) => pure (s.glbGet o)
  | (.time, o) => pure (s.timeGet o)
  | (.dec, o) => s.decGet p o
  | (.cal, o) =>
    pure (if o = 0x004 then some s.calStat else if 0x3000 ≤ o then some (s.unitStat ((o - 0x3000) / 4)) else none)
  | (.flt, o) => pure (if o = 0x028 then some (s.holdBits 64) else none)
  | (.dma d, o) => pure (s.dmaGet d o)
  | (.ser, o) => s.serGet o
  | (.pe n, o) => s.peGet p n o
  | (.we n, o) => s.engGet p (64 + n) o
  | (.pb n, o) => s.pbGet p n o
  | (.rf n, o) => s.rfGet p n o
  | (.fs n, o) => some (s.fsRead n (o / 4))
  | _ => none

/-- A write that acts, or is refused. -/
def State.specialWrite (s : State) (p : Path) (a : Nat) (v : Word) : Option State :=
  match blkOf a with
  | (.glb, o) => s.glbSet p o v
  | (.time, o) => s.timeSet p o v
  | (.dec, o) => s.decSet p o v
  | (.flt, o) =>
    if o = 0x004 then some (opFaultAck (v.truncate 16) s) else if o = 0x00C then some (fltCfgSet p v s) else none
  | (.thm, o) =>
    if o = 0x004 then some (thmCfgSet p v s)
    else if 0x100 ≤ o then some (s.iff (bit v 31) (opSuspectClear ((o - 0x100) / 4))) else none
  | (.cal, o) =>
    if o = 0x000 then some (s.calCtrl p v) else if o = 0x008 then some (calCfgSet p v s) else none
  | (.dma d, o) => s.dmaSet p d o v
  | (.ser, o) => s.serSet p o v
  | (.mcs, o) =>
    if o = 0x000 then some (s.mcsCtrl p v)
    else if 0x010 ≤ o ∧ o ≤ 0x018 then s.allow p (!s.imgBusy) else none
  | (.pe n, o) => s.peSet p n o v
  | (.we n, o) => s.engSet p (64 + n) o v
  | (.pb n, o) => s.pbSet p n o v
  | (.rf n, o) => if o < 0x4000 then s.txSet p n o v else s.rxSet p n o v
  | (.mem e, o) => some (s.memSet p e o v)
  | (.fs _, _) => some (s.cfgErr p)
  | _ => none

/-- R10: GLB_LOCK holds the register, and no blob is being applied. -/
def State.locked (s : State) (r : Row) : Bool := r.rwl && s.glbLock && !s.blob

/-- A read that reaches its register (R404 rule 5). -/
def State.regRead (s : State) (p : Path) (a : Nat) : Word × State :=
  match s.specialRead p a, rowAt (rowsOf (blkOf a).1) (blkOf a).2 with
  | some r, _ => r
  | none, some (r, _) => s.plainRead p a r
  | none, none => (0, s)

/-- A write that reaches its register. -/
def State.regWrite (s : State) (p : Path) (a : Nat) (v : Word) : State :=
  match rowAt (rowsOf (blkOf a).1) (blkOf a).2 with
  | none => s
  | some (r, k) =>
    if s.locked r then s
    else
      match s.specialWrite p a v with
      | some t => t
      | none => s.plainWrite p a r k v

/-- An access through the rules of R404: what a read returns, and a write's effect. -/
def State.busRead (s : State) (p : Path) (a : Nat) : Word × State :=
  match s.reach p a false with
  | (none, s) => s.regRead p a
  | (some v, s) => (v, s)

def State.busWrite (s : State) (p : Path) (a : Nat) (v : Word) : State := s.host p a (fun s => s.regWrite p a v)

end Sys2Proof.Machine
end

