-- ==== Sys2Proof/Machine/RegAccess.lean ====
section
/-! DEFINITION. The register accesses that have a row of their own (R11, R12, R402), and CSR (R107, R108). -/

namespace Sys2Proof.Machine

/-- An offset that names a register pair of words. -/
def aligned (a : BitVec 26) : Bool := a.toNat % 4 = 0

/-- LO_READ_LATCH: a read of a register; one of NAME_LO latches the other half (R11). A read of any register takes this row. -/
def execLoReadLatch (p : Path) (a : BitVec 26) (s : State) : Host.Outcome State Fault Refusal :=
  if aligned a then
    .next (s.hostRead p a.toNat (fun s => s.regRead p a.toNat))
  else .fault (.illFormed "LO_READ_LATCH")

/-- LO_WRITE_HOLD: the low half is held (R12). -/
def execLoWriteHold (p : Path) (a : BitVec 26) (v : Word) (s : State) : Host.Outcome State Fault Refusal :=
  if aligned a then .next (s.busWrite p a.toNat v) else .fault (.illFormed "LO_WRITE_HOLD")

/-- HI_WRITE_PAIR: both halves are written together (R12). -/
def execHiWritePair (p : Path) (a : BitVec 26) (v : Word) (s : State) : Host.Outcome State Fault Refusal :=
  if aligned a then .next (s.busWrite p a.toNat v) else .fault (.illFormed "HI_WRITE_PAIR")

/-- A request of a form that reaches no register (R402, R404). -/
def State.sizeErr (s : State) (p : Path) (a : Nat) : State :=
  match s.gate p a with
  | (some _, s) => s
  | (none, s) => (s.hostStat 2 a).raise clsHost 0 (pathKind p).1 (pathKind p).2 0

/-- A quadword is accepted in the MSI-X table and the pending bit array, aligned (R402). -/
def quadOk (a : Nat) : Bool := decide (0x3000 ≤ a) && decide (a < 0x4020) && a % 8 == 0

/-- REGISTER_WRITE -/
def opRegisterWrite (p : Path) (a : Nat) (q : Req) (v : Word) (s : State) : State :=
  match q with
  | .dword => if a % 4 = 0 then s.busWrite p a v else s.sizeErr p a
  | .quad hi => if quadOk a then (s.busWrite p a v).busWrite p (a + 4) hi else s.sizeErr p a
  | .other => s.sizeErr p a

def execRegisterWrite (p : Path) (a : BitVec 26) (q : Req) (v : Word) (s : State) : Host.Outcome State Fault Refusal :=
  .next (opRegisterWrite p a.toNat q v s)

/-! CSR -/

/-- The BAR0 offset that a block and a word offset name for an engine (R107). -/
def csrAddr (e : Nat) (blk : BitVec 2) (off : BitVec 14) : Nat :=
  if blk = 0 then engA e (4 * off.toNat)
  else if blk = 1 then (if e < 64 then pbA e (4 * off.toNat) else rfA (e - 64) (4 * off.toNat))
  else timeA (4 * off.toNat)

/-- CSR: a register whose domain is off is ILLEGAL (R345); else the access has the effect of a host access (R108). -/
def opCsr (x : Iss) (rd ra : Gr) (wr : Bool) (a : Nat) (s : State) : State :=
  let p := Path.csr x.eng
  if !s.dom (domainOf a) then s.illegal x.eng.val (s.eng x.eng.val).lastPc
  else if wr then (s.busWrite p a (loHalf (s.reg x ra))).takeTag x rd (some 0) .average
  else
    match s.busRead p a with
    | (v, s) => s.takeTag x rd (some (v.zeroExtend 64)) .average

def execCsr (x : Iss) (rd ra : Gr) (wr : Bool) (blk : BitVec 2) (off : BitVec 14) (s : State) :
    Host.Outcome State Fault Refusal :=
  .next (s.issue x { grp := 12, timedOk := false, ok := csrOk x.eng.val blk.toNat (4 * off.toNat) wr,
                     srcs := if wr then [ra] else [], dst := [rd], tag := true }
    (opCsr x rd ra wr (csrAddr x.eng.val blk off)))

end Sys2Proof.Machine
end

