-- ==== Sys2Proof/Machine/Move.lean ====
section
/-! DEFINITION. What moves data in bulk: a DMA burst (R333–R340) and BAR2 (R326, R328, R331). -/

namespace Sys2Proof.Machine

/-- `n` bytes of HBM from a byte address upward, under the code's verdict on one word of them, whichever it was. -/
def State.hbmSpan (s : State) (a n : Nat) (e : HbmEcc) : List Byte × State :=
  let a0 := a / 8 * 8
  let (b, s) := s.copyRead a0 (s.hbmGet a0 ((a + n + 7) / 8 * 8 - a0)) e
  ((b.drop (a - a0)).take n, s)

/-- Every stack that a range touches is on. -/
def State.spanOn (s : State) (a n : Nat) : Bool := s.stackOn (stackOf a) && s.stackOn (stackOf (a + n - 1))

/-! DMA bursts -/

/-- What a burst could not do: a bus error (cause, address, space, write), or an uncorrectable word of its source. -/
inductive BurstErr
  | bus (cause a space : Nat) (wr : Bool)
  | data (a : Nat)
  deriving DecidableEq, Repr

/-- `n / 4` registers read from a BAR0 offset upward (R333). -/
def State.busReads (s : State) (p : Path) (a n : Nat) : List Byte × State :=
  (List.range (n / 4)).foldl (fun r i =>
    let (v, s) := r.2.busRead p (a + 4 * i)
    (r.1 ++ bytesOf 4 v.toNat, s)) ([], s)

/-- Registers written from a BAR0 offset upward, or with DFIX in turn at the two of a pair (R333). -/
def State.busWrites (s : State) (p : Path) (dst moved : Nat) (fixed : Bool) (b : List Byte) : State :=
  s.each (List.range (b.length / 4)) (fun s i =>
    s.busWrite p (dst + (if fixed then (moved / 4 + i) % 2 * 4 else moved + 4 * i)) (BitVec.ofNat 32 (leAt b (4 * i) 4)))

/-- A burst's source (R340, R331). -/
def State.burstRead (s : State) (d : Fin 4) (spc a n : Nat) (host : List Byte) (e : HbmEcc) :
    Except BurstErr (List Byte) × State :=
  if spc = 0 then
    (if !s.spanOn a n then (.error (.bus 4 a 0 false), s)
     else
       let (b, s) := s.hbmSpan a n e
       (if isUe e then .error (.data a) else .ok b, s))
  else if spc = 1 then (if s.busMaster then .ok host else .error (.bus 5 a 1 false), s)
  else
    let (b, s) := s.busReads (.dma d) a n
    (.ok b, s)

/-- One entry of the FIFO that PREQ names, or filler where it has emptied (R339). -/
def State.preqEntry (s : State) (d : Fin 4) (c q : Nat) : List Byte × State :=
  let sz := preqSize q
  if s.preqLevel q = 0 then
    ((List.range (sz / 4)).flatMap (fun _ => bytesOf 4 0xDEADF111),
     (s.put (chA d.val c 0x04) 12 true).count (chA d.val c 0x20) (chA d.val c 0x04) 30)
  else if q = 33 then
    let (lo, s) := msgGet (.dma d) s
    (bytesOf 4 lo.toNat ++ bytesOf 4 (s.getLatch (.dma d)).toNat, s)
  else
    let s := (s.resData (.dma d) (q - 1) 0).2
    (recBytes (s.resLatchOf (.dma d) (q - 1)), s)

/-- The fixed entries of a peripheral burst. -/
def State.preqEntries (s : State) (d : Fin 4) (c q k : Nat) : List Byte × State :=
  (List.range k).foldl (fun r _ =>
    let (b, s) := r.2.preqEntry d c q
    (r.1 ++ b, s)) ([], s)

/-- A burst's destination. -/
def State.burstWrite (s : State) (d : Fin 4) (q : BitVec 256) (moved : Nat) (b : List Byte) : Except BurstErr State :=
  let a := dDst q + moved
  if dDspc q = 0 then (if s.spanOn a b.length then .ok (s.hbmPut a b) else .error (.bus 4 a 0 true))
  else if dDspc q = 1 then (if s.busMaster then .ok (s.emit (.hostWrite a b)) else .error (.bus 5 a 1 true))
  else .ok (s.busWrites (.dma d) (dDst q) moved (dDfix q) b)

/-- A burst fails: a bus error stops the engine, an uncorrectable word ends the channel with DATA_ERR. -/
def State.burstFail (s : State) (d : Fin 4) (k : Nat) : BurstErr → State
  | .bus cause a spc wr => s.dmaBusErr d.val cause (BitVec.ofNat 64 a) spc wr 0
  | .data a => (s.raise clsEccU 0 7 (stackOf a) 0).chanFail k 4 (s.chan k).resid .idle

/-- Bytes of the burst at hand: 2^BURST, or what is left; of a peripheral burst, the entries fixed at its service. -/
def Chan.burstLen (x : Chan) (q : BitVec 256) : Nat :=
  if dPreq q = 0 then min (2 ^ dBurst q) (dLen q - x.moved) else x.entries * preqSize (dPreq q)

/-- DMA_BURST: the burst in progress on an ACTIVE channel completes; `host` are the bytes a host source gives. -/
def opDmaBurst (d : Fin 4) (c : Nat) (host : List Byte) (e : HbmEcc) (s : State) : State :=
  let k := chKey d.val c
  let x := s.chan k
  match x.desc with
  | none => s
  | some q =>
    let n := x.burstLen q
    if x.st ≠ .active ∨ !x.taken ∨ n = 0 ∨ (dSspc q = 1 ∧ dPreq q = 0 ∧ s.busMaster ∧ host.length ≠ n) then s
    else
      let r : Except BurstErr (List Byte) × State :=
        if dPreq q = 0 then s.burstRead d (dSspc q) (dSrc q + x.moved) n host e
        else
          let (b, s) := s.preqEntries d c (dPreq q) x.entries
          (.ok b, s)
      match r with
      | (.error w, s) => s.burstFail d k w
      | (.ok b, s) =>
        match s.burstWrite d q x.moved b with
        | .error w => s.burstFail d k w
        | .ok s => s.burstDone k n q

def execDmaBurst (d : Fin 4) (c : Fin 16) (host : List Byte) (ecc : HbmEcc) (s : State) : Host.Outcome State Fault Refusal :=
  .next (opDmaBurst d c.val host ecc s)

/-! BAR2 -/

/-- Accesses that R354 and R328 answer: `none` reaches HBM. -/
def State.bar2Gate (s : State) (a n : Nat) : Option State :=
  if s.season = 0 ∨ s.season = 4 ∨ s.season = 5 then some s.winterAnswer
  else if s.spanOn a n then none
  else some ((s.put 0x1004 17 true).raise clsHost 0 9 0 0)

/-- BAR2_READ -/
def opBar2Read (a n : Nat) (e : HbmEcc) (s : State) : State :=
  if s.seas.resetLow then s
  else
    match s.bar2Gate a n with
    | some s => s.emit (.bar2Data (List.replicate n 0xFF))
    | none =>
      let (b, s) := s.hbmSpan a n e
      if isUe e then (s.raise clsEccU 0 7 (stackOf a) 0).emit (.poisoned n) else s.emit (.bar2Data b)

def execBar2Read (a : BitVec 36) (bytes : Nat) (ecc : HbmEcc) (s : State) : Host.Outcome State Fault Refusal :=
  if 0 < bytes ∧ a.toNat + bytes ≤ 2 ^ 36 then .next (opBar2Read a.toNat bytes ecc s) else .fault (.illFormed "BAR2_READ")

/-- The eight byte lanes of word w in a write from byte address `a`: the byte enabled, or none. -/
def laneBytes (a : Nat) (data : List (Option Byte)) (w : Nat) : List (Option Byte) :=
  (List.range 8).map (fun j => if a ≤ 8 * w + j then data.getD (8 * w + j - a) none else none)

/-- A 64-bit word written: whole, or by a read-modify-write under the code's verdict (R326, R331). -/
def State.wordWrite (s : State) (w : Nat) (l : List (Option Byte)) (e : HbmEcc) : State :=
  if l.all Option.isSome then s.hbmPut (8 * w) (l.map (fun b => b.getD 0))
  else
    let (v, s) := s.hbmRead (8 * w) e
    let s := s.hbmPut (8 * w) (l.zipWith (fun b o => b.getD o) (bytesOf 8 v.toNat))
    s.iff (isUe e) (fun s => (s.put 0x1004 18 true).raise clsEccU 0 7 (stackOf (8 * w)) 0)

/-- The words of a write in ascending order; the verdict is that of the first word written in part. -/
def State.wordWrites (s : State) (a : Nat) (data : List (Option Byte)) : List Nat → HbmEcc → State
  | [], _ => s
  | w :: t, e =>
    let l := laneBytes a data w
    if !l.any Option.isSome then s.wordWrites a data t e
    else if l.all Option.isSome then (s.wordWrite w l .ok).wordWrites a data t e
    else (s.wordWrite w l e).wordWrites a data t .ok

/-- BAR2_WRITE -/
def opBar2Write (a : Nat) (data : List (Option Byte)) (e : HbmEcc) (s : State) : State :=
  if s.seas.resetLow then s
  else
    match s.bar2Gate a data.length with
    | some s => s
    | none => s.wordWrites a data ((List.range ((a + data.length + 7) / 8 - a / 8)).map (fun i => a / 8 + i)) e

def execBar2Write (a : BitVec 36) (data : List (Option Byte)) (ecc : HbmEcc) (s : State) : Host.Outcome State Fault Refusal :=
  if 0 < data.length ∧ a.toNat + data.length ≤ 2 ^ 36 then .next (opBar2Write a.toNat data ecc s)
  else .fault (.illFormed "BAR2_WRITE")

end Sys2Proof.Machine
end

