-- ==== Sys2Proof/Machine/Boot.lean ====
section
/-! DEFINITION. The Supervisor's boot: firmware and configuration blob (R360–R363). -/

namespace Sys2Proof.Machine

/-- COUNT of a blob. -/
def blobCount (b : List Byte) : Nat := leAt b 4 2

/-- Entry i of a blob: its BAR0 offset and value. -/
def blobEntry (b : List Byte) (i : Nat) : Nat × Word := (leAt b (8 + 8 * i) 4, BitVec.ofNat 32 (leAt b (12 + 8 * i) 4))

/-- Check 4 of R363: an offset that a blob may write. -/
def blobOffOk (o : Nat) : Bool :=
  o % 4 == 0 && (decide (o < 0x60000) || (decide (0x70000 ≤ o) && decide (o < 0x80000))
    || (decide (0x700000 ≤ o) && decide (o < 0x800000))) && o != 0x014 && o != 0x034 && o != 0x044

/-- CFG_CAUSE: the first check of R363 that a blob fails; 0 is none. -/
def blobCause (b : List Byte) : Nat :=
  let n := blobCount b
  if b.length < 4 ∨ leAt b 0 4 ≠ 0x31424643 then 1
  else if 1024 < n ∨ b.length ≠ 12 + 8 * n then 2
  else if leAt b (8 + 8 * n) 4 ≠ (crc32 (b.take (8 + 8 * n))).toNat then 3
  else if (List.range n).all (fun i => blobOffOk (blobEntry b i).1) then 0 else 4

/-- An accepted blob is applied entry by entry, as host writes that also reach RWL fields (R10, R363). -/
def State.blobApply (s : State) (b : List Byte) : State :=
  let s := s.each (List.range (blobCount b)) (fun s i =>
    s.busWrite .supervisor (blobEntry b i).1 (blobEntry b i).2)
  { s with blob := false }

/-- The blob is checked and applied, or refused. -/
def State.blobLoad (s : State) (b : List Byte) : State :=
  let c := blobCause b
  let s := s.wrf 0x040 12 4 c
  if c = 0 then { s with blob := true }.blobApply b else (s.put 0x040 31 true).cfgErr .supervisor

/-- The boot interrupt (R366). -/
def State.bootIrq (s : State) : State := s.iff (s.tst 0x060 1) (fun s => s.irq 2)

/-- The firmware that the ROM has read: from flash, where NWORDS gives its length, or from HBM; `none` where its stack cannot
be read. -/
def State.fwImageRead (s : State) (fw : List Byte) (e : HbmEcc) : Option (List Byte) × State :=
  if s.tst 0x040 4 then
    match s.hbmBytes s.fwAddr (s.rdf 0x058 0 21) with
    | none => (none, s)
    | some b => let (b, s) := s.copyRead s.fwAddr b e; (some b, s)
  else (some (fw.take (imgLen fwImage fw)), s)

/-- The blob: from flash, where COUNT gives its length, or from HBM. -/
def State.blobRead (s : State) (blob : List Byte) : List Byte :=
  if s.tst 0x040 4 then (s.hbmBytes s.cfgAddr (s.rdf 0x05C 0 14)).getD [] else blob.take (12 + 8 * blobCount blob)

/-- FW_CAUSE (R361). -/
def State.fwCause (s : State) (f : Option (List Byte)) (e : HbmEcc) : Nat :=
  match f with
  | none => 6
  | some b => imageCause fwImage b (s.tst 0x040 4 && isUe e)

/-- FIRMWARE_LOAD_DONE: the firmware is checked; then the blob, BOOT_DONE, and the load of the Card Identity Record (R421).
A refused image leads to WAIT_HOST. -/
def opFirmwareLoad (fw blob : List Byte) (e : HbmEcc) (s : State) : State :=
  let st := s.rdf 0x040 0 3
  if (st ≠ 1 ∧ st ≠ 3) ∨ (s.season ≠ 1 ∧ s.season ≠ 3) then s
  else
    match s.fwImageRead fw e with
    | (f, s) =>
      let c := s.fwCause f e
      let s := s.wrf 0x040 8 4 c
      if c ≠ 0 then ((s.put 0x040 30 true).wrf 0x040 0 3 2).bootIrq
      else (opCirLoad (((s.blobLoad (s.blobRead blob)).wrf 0x040 0 3 5).put 0x00C 1 true)).bootIrq

def execFirmwareLoadDone (fw blob : List Byte) (ecc : HbmEcc) (s : State) : Host.Outcome State Fault Refusal :=
  .next (opFirmwareLoad fw blob ecc s)

end Sys2Proof.Machine
end

