-- ==== Sys2Proof/Machine/HostLink.lean ====
section
/-! DEFINITION. The PCIe function and its link: resets, link up and down, MSI-X unmasking (R355, R407–R409, R449). -/

namespace Sys2Proof.Machine

/-- The configuration space, the MSI-X table and the pending bits at reset, and Bus Master Enable clear (R407). In WINTER and
WAKING this is the link keeper's copy (R355). -/
def State.functionReset (s : State) : State :=
  let s := { s with msixEn := false, msixMask := false, busMaster := false,
                    bar := s.bar.filter (fun e => !(decide (0x3000 ≤ e.1) && decide (e.1 < 0x4020))) }
  s.iff (s.dom 2) (fun s => s.put 0x2000 3 true)

/-- LINK_UP is cleared, with the effect on Bus Master Enable (R407). -/
def State.linkLost (s : State) : State := { s.put 0x2000 0 false with busMaster := false }

/-- FUNCTION_LEVEL_RESET: a function level reset or a hot reset. -/
def execFunctionLevelReset (s : State) : Host.Outcome State Fault Refusal := .next s.functionReset

/-- PCIE_PERST: the link is held down, and the endpoint reset as by a hot reset (R449). -/
def execPciePerst (s : State) : Host.Outcome State Fault Refusal := .next s.functionReset.linkLost

/-- LINK_DOWN -/
def execLinkDown (s : State) : Host.Outcome State Fault Refusal := .next s.linkLost

/-- PCIE_LINK_UP: the link trains to a width and a speed. `bme` is the Bus Master Enable that the host writes as it enumerates
(log 18). A link that went down in WINTER trains during WAKING (R355). -/
def opLinkUp (width : BitVec 6) (speed : BitVec 3) (bme : Bool) (s : State) : State :=
  if s.seas.resetLow ∨ s.season = 0 then s
  else { s.wr 0x2000 ((s.rd 0x2000 &&& 0xE) ||| BitVec.ofNat 32 (width.toNat * 2 ^ 8 + speed.toNat * 2 ^ 5 + 1)) with
         busMaster := bme }

def execPcieLinkUp (width : BitVec 6) (speed : BitVec 3) (bme : Bool) (s : State) : Host.Outcome State Fault Refusal :=
  .next (opLinkUp width speed bme s)

/-- What is pending and no longer masked goes out; from the copy of R355 nothing does before the SPRING tick. -/
def State.msixSend (s : State) : State := if s.season = 0 ∨ s.season = 4 then s else s.msixFlush

/-- MSIX_UNMASK: the host clears the vector's mask bit, sets MSI-X Enable, or clears the Function Mask. -/
def opMsixUnmask (u : Unmask) (s : State) : State :=
  match u with
  | .vector v => s.host .pcie (0x300C + 16 * v.val) (fun s => (s.wr (0x300C + 16 * v.val) 0).msixSend)
  | .enable => { s with msixEn := true }.msixSend
  | .functionMask => { s with msixMask := false }.msixSend

def execMsixUnmask (u : Unmask) (s : State) : Host.Outcome State Fault Refusal := .next (opMsixUnmask u s)

end Sys2Proof.Machine
end

