-- ==== Sys2Proof/Machine/Chain.lean ====
section
/-! DEFINITION. The Chain Port: frames, responses and commands (R410–R416). A frame's bits are listed from the first shifted
in. -/

namespace Sys2Proof.Machine

/-- N of R411: data words in a frame of a length; a short frame has none. -/
def chainWords (len : Nat) : Nat := (len - 48) / 32

/-- P of R411: pad bits in a frame of a length. -/
def chainPads (len : Nat) : Nat := if len < 80 then len - 16 else (len - 48) % 32

/-- A frame's bits from CMD to the last data word (R411). -/
def chainBody (len : Nat) (code : BitVec 8) (addr : Word) (ws : List Word) : List Bool :=
  if len < 80 then msbBits code
  else msbBits code ++ msbBits addr ++ ((List.range (chainWords len)).flatMap (fun i => msbBits (ws.getD i 0)))

/-- A frame with its pad bits, which the spec leaves open, and its CRC (R412). -/
def State.chainBits (s : State) (len : Nat) (code : BitVec 8) (addr : Word) (ws : List Word) : List Bool × State :=
  let (v, s) := s.free
  let b := chainBody len code addr ws
  ((msbBits v).take (chainPads len) ++ b ++ msbBits (crc8 b), s)

/-- The number that bits spell, most significant first. -/
def ofMsb (l : List Bool) : Nat := l.foldl (fun n b => 2 * n + b.toNat) 0

/-- A bit of CHN_STAT sets, with vector 166 where it was clear (R426). -/
def State.chnSet (s : State) (i : Nat) : State :=
  (s.put (serA 0x008) i true).iff (!s.tst (serA 0x008) i) (fun s => s.irq 166)

/-- The response to the last frame. -/
def State.chnAnswer (s : State) (status : BitVec 8) : State := s.modChn (fun c => { c with status := status, data := [] })

/-- A discarded frame: bit i of CHN_STAT, the capture and the count (R413). -/
def State.chnDiscard (s : State) (i count : Nat) : State :=
  (((s.chnSet i).wr (serA 0x00C) (BitVec.ofNat 32 count)).count (serA 0x010) (serA 0x008) 31).chnAnswer (BitVec.ofNat 8 (2 ^ i))

/-- R413: the edge count that accepts a frame. -/
def Chain.countOk (c : Chain) (count : Nat) : Bool := if c.total = 0 then decide (c.len ≤ count) else count == c.total

/-- CMD_ERR: of a frame refused while a command runs, the response follows the pending one (R414). -/
def State.chnCmdErr (s : State) : State :=
  if s.chn.busy then (s.chnSet 4).modChn (fun c => { c with refused := true }) else (s.chnSet 4).chnAnswer 0x08

/-- What the port loads at select fall (R414). -/
def State.chainResponse (s : State) : (BitVec 8 × Word × List Word) × State :=
  match s.chn.pending with
  | r :: t =>
    if t = [] ∧ s.chn.busy then ((0x40, 0, []), s) else (r, s.modChn (fun c => { c with pending := t }))
  | [] =>
    if s.chn.refused then ((0x08, 0, []), s.modChn (fun c => { c with refused := false }))
    else ((s.chn.status, s.chn.addr, s.chn.data), s)

/-- CHAIN_SELECT_FALL: CHAIN_LEN and CHAIN_TOTAL take effect (R411), and the response is loaded. -/
def opSelectFall (s : State) : State :=
  if s.seas.resetLow ∨ s.chn.selected then s
  else
    let len := s.rdf (serA 0) 0 13
    let total := s.rdf (serA 4) 0 20
    let (r, s) := s.chainResponse
    let (b, s) := s.chainBits len r.1 r.2.1 r.2.2
    (s.modChn (fun c => { c with len := len, total := total, selected := true, shift := b })).emit (.chain b)

def execChainSelectFall (s : State) : Host.Outcome State Fault Refusal := .next (opSelectFall s)

/-- A frame ends with the select: it is discarded, refused, or acted on by `f`. `short` says whether a short frame may hold its
command (R413, R414). -/
def State.chainFrame (s : State) (count : Nat) (short : Bool) (b : List Bool) (f : State → State) : State :=
  let s := s.modChn (fun c => { c with selected := false, shift := b })
  if !s.chn.countOk count then s.chnDiscard 1 count
  else if s.chn.busy ∨ (s.chn.len < 80 ∧ !short) then s.chnCmdErr
  else f s

/-- A frame of a known command with CHAIN_LEN bits; ADDR and data that the command does not use are open. -/
def State.chainCmd (s : State) (count : Nat) (code : BitVec 8) (addr : Option Word) (ws : Option (List Word))
    (f : State → State) : State :=
  if s.seas.resetLow ∨ !s.chn.selected ∨ (ws.any (fun l => l.length ≠ chainWords s.chn.len)) then s
  else
    let (fa, s) := s.free
    let (fw, s) := (List.range (chainWords s.chn.len)).foldl (fun (r : List Word × State) _ =>
      let (v, s) := r.2.free
      (r.1 ++ [loHalf v], s)) ([], s)
    let (b, s) := s.chainBits s.chn.len code (addr.getD (loHalf fa)) (ws.getD fw)
    s.chainFrame count (decide (addr = none)) b f

/-- CHAIN_FRAME_DISCARD: a frame with a wrong edge count, a wrong CRC or an unknown code. -/
def opFrameDiscard (count : Nat) (frame : List Bool) (s : State) : State :=
  let len := s.chn.len
  let body := frame.drop (chainPads len)
  let code := ofMsb (body.take 8)
  if s.seas.resetLow ∨ !s.chn.selected ∨ frame.length ≠ len then s
  else if s.chn.countOk count ∧ ofMsb (body.drop (body.length - 8)) = (crc8 (body.take (body.length - 8))).toNat
      ∧ (code = 0 ∨ code = 15 ∨ (80 ≤ len ∧ code ≤ 3)) then s
  else
    s.chainFrame count true frame (fun s =>
      if ofMsb (body.drop (body.length - 8)) ≠ (crc8 (body.take (body.length - 8))).toNat then s.chnDiscard 2 count
      else s.chnCmdErr)

def execChainFrameDiscard (count : BitVec 20) (frame : List Bool) (s : State) : Host.Outcome State Fault Refusal :=
  .next (opFrameDiscard count.toNat frame s)

/-! The commands -/

/-- NOP -/
def execNop (count : BitVec 20) (s : State) : Host.Outcome State Fault Refusal :=
  .next (s.chainCmd count.toNat 0 none none (fun s => s.chnAnswer 0x80))

/-- LEN80 -/
def execLen80 (count : BitVec 20) (s : State) : Host.Outcome State Fault Refusal :=
  .next (s.chainCmd count.toNat 15 none none (fun s => (s.wr (serA 0) 80).chnAnswer 0x80))

/-- A READ or WRITE on its way: the address, what was read, and the status bits so far. -/
structure ChainWalk where
  a : Nat
  vals : List Word := []
  past : Bool := false
  winter : Bool := false

/-- The last register of the block that holds an address; none outside the blocks (R415). -/
def chainEnd (a : Nat) : Option Nat :=
  let (b, o) := blkOf a
  if b = .hole ∨ lastReg b < o then none else some (a - o + lastReg b)

/-- An access that R354 answers. -/
def State.isWinter (s : State) (a : Nat) : Bool := (s.season == 0 || s.season == 4 || s.season == 5) && domainOf a != 0

/-- One word of a READ (`v` none) or a WRITE. -/
def chainWord (stop : Option Nat) (step : Nat) (v : Option Word) (r : ChainWalk × State) : ChainWalk × State :=
  let (w, s) := r
  if stop.any (fun m => m < w.a) then ({ w with vals := w.vals ++ [0], past := true }, s)
  else
    let w := { w with winter := w.winter || s.isWinter w.a }
    match v with
    | none =>
      let (x, s) := s.busRead .chain w.a
      ({ w with a := w.a + step, vals := w.vals ++ [x] }, s)
    | some v => ({ w with a := w.a + step }, s.busWrite .chain w.a v)

/-- A command has done its accesses: its response waits for the command's end (R414). -/
def State.chainRun (r : ChainWalk × State) (addr : Nat) : State :=
  let (w, s) := r
  let s := s.iff w.past (fun s => s.chnSet 3)
  let st := BitVec.ofNat 8 (0x80 + w.winter.toNat * 32 + w.past.toNat * 16)
  s.modChn (fun c => { c with busy := true, addr := BitVec.ofNat 32 addr,
                              pending := c.pending ++ [(st, BitVec.ofNat 32 addr, w.vals)] })

/-- READ: N words from ADDR upward (R414, R415). -/
def opChainRead (a : Nat) (s : State) : State :=
  let r := (List.range (chainWords s.chn.len)).foldl (fun r _ => chainWord (chainEnd a) 4 none r) ({ a := a }, s)
  State.chainRun r r.1.a

def execRead (count : BitVec 20) (addr : Word) (s : State) : Host.Outcome State Fault Refusal :=
  .next (s.chainCmd count.toNat 1 (some addr) none (opChainRead addr.toNat))

/-- WRITE: the data words to ADDR upward (R414, R415). -/
def opChainWrite (a : Nat) (data : List Word) (s : State) : State :=
  let r := data.foldl (fun r v => chainWord (chainEnd a) 4 (some v) r) ({ a := a }, s)
  State.chainRun ({ r.1 with vals := [] }, r.2) r.1.a

def execWrite (count : BitVec 20) (addr : Word) (data : List Word) (s : State) : Host.Outcome State Fault Refusal :=
  .next (s.chainCmd count.toNat 2 (some addr) (some data) (opChainWrite addr.toNat data))

/-- READ_FIXED: ADDR, N times. -/
def opChainFixed (a : Nat) (s : State) : State :=
  let r := (List.range (chainWords s.chn.len)).foldl (fun r _ => chainWord none 0 none r) ({ a := a }, s)
  State.chainRun r (a + 4)

def execReadFixed (count : BitVec 20) (addr : Word) (s : State) : Host.Outcome State Fault Refusal :=
  .next (s.chainCmd count.toNat 3 (some addr) none (opChainFixed addr.toNat))

/-- CHAIN_COMMAND_DONE: the command that runs has ended. -/
def execChainCommandDone (s : State) : Host.Outcome State Fault Refusal := .next (s.modChn (fun c => { c with busy := false }))

/-- CHN_LEN_WRITE -/
def execChnLenWrite (p : Path) (v : Word) (s : State) : Host.Outcome State Fault Refusal := .next (s.busWrite p (serA 0) v)

end Sys2Proof.Machine
end

