-- ==== Sys2Proof/Machine/Dispatch.lean ====
section
/-! DEFINITION. The one dispatch: an arm per command, each a direct call of its meaning. -/

namespace Sys2Proof.Machine

/-- The effect of a command on everything but the queue. -/
def exec (i : Instr) (s : State) : Host.Outcome State Fault Refusal :=
  match i with
  | .resetNAssert => Sys2Proof.Machine.execResetNAssert s
  | .resetNRelease => Sys2Proof.Machine.execResetNRelease s
  | .refWarmFall => Sys2Proof.Machine.execRefWarmFall s
  | .refWarmRise => Sys2Proof.Machine.execRefWarmRise s
  | .refLost => Sys2Proof.Machine.execRefLost s
  | .refclkReturn => Sys2Proof.Machine.execRefclkReturn s
  | .pllLock => Sys2Proof.Machine.execPllLock s
  | .wtcWrap => Sys2Proof.Machine.execWtcWrap s
  | .periodicBeacon => Sys2Proof.Machine.execPeriodicBeacon s
  | .resync p => Sys2Proof.Machine.execResync p s
  | .cancel p => Sys2Proof.Machine.execCancel p s
  | .resyncApply => Sys2Proof.Machine.execResyncApply s
  | .loReadLatch p a => Sys2Proof.Machine.execLoReadLatch p a s
  | .loWriteHold p a v => Sys2Proof.Machine.execLoWriteHold p a v s
  | .hiWritePair p a v => Sys2Proof.Machine.execHiWritePair p a v s
  | .registerWrite p a q v => Sys2Proof.Machine.execRegisterWrite p a q v s
  | .lock p => Sys2Proof.Machine.execLock p s
  | .start p e => Sys2Proof.Machine.execStart p e s
  | .stop p e => Sys2Proof.Machine.execStop p e s
  | .stopNow p e => Sys2Proof.Machine.execStopNow p e s
  | .suspend p e => Sys2Proof.Machine.execSuspend p e s
  | .resume p e => Sys2Proof.Machine.execResume p e s
  | .cont p e => Sys2Proof.Machine.execCont p e s
  | .engineStopped e => Sys2Proof.Machine.execEngineStopped e s
  | .sigCodeRead p e => Sys2Proof.Machine.execSigCodeRead p e s
  | .localMemoryWrite p e w v => Sys2Proof.Machine.execLocalMemoryWrite p e w v s
  | .issuePastEnd e => Sys2Proof.Machine.execIssuePastEnd e s
  | .undefinedInstruction e w => Sys2Proof.Machine.execUndefinedInstruction e w s
  | .tagWriteback e tag => Sys2Proof.Machine.execTagWriteback e tag s
  | .br x off => Sys2Proof.Machine.execBr x off s
  | .brc x ra md off => Sys2Proof.Machine.execBrc x ra md off s
  | .loop x c off => Sys2Proof.Machine.execLoop x c off s
  | .call x off => Sys2Proof.Machine.execCall x off s
  | .callr x ra => Sys2Proof.Machine.execCallr x ra s
  | .brr x ra => Sys2Proof.Machine.execBrr x ra s
  | .ret x => Sys2Proof.Machine.execRet x s
  | .ldc x c ra ty imm => Sys2Proof.Machine.execLdc x c ra ty imm s
  | .rdc x rd c => Sys2Proof.Machine.execRdc x rd c s
  | .add x rd ra rb => Sys2Proof.Machine.execAdd x rd ra rb s
  | .sub x rd ra rb => Sys2Proof.Machine.execSub x rd ra rb s
  | .and x rd ra rb => Sys2Proof.Machine.execAnd x rd ra rb s
  | .or x rd ra rb => Sys2Proof.Machine.execOr x rd ra rb s
  | .xor x rd ra rb => Sys2Proof.Machine.execXor x rd ra rb s
  | .andn x rd ra rb => Sys2Proof.Machine.execAndn x rd ra rb s
  | .shl x rd ra rb => Sys2Proof.Machine.execShl x rd ra rb s
  | .shr x rd ra rb => Sys2Proof.Machine.execShr x rd ra rb s
  | .sar x rd ra rb => Sys2Proof.Machine.execSar x rd ra rb s
  | .rol x rd ra rb => Sys2Proof.Machine.execRol x rd ra rb s
  | .mul x rd ra rb => Sys2Proof.Machine.execMul x rd ra rb s
  | .mulhu x rd ra rb => Sys2Proof.Machine.execMulhu x rd ra rb s
  | .mulhs x rd ra rb => Sys2Proof.Machine.execMulhs x rd ra rb s
  | .min x rd ra rb => Sys2Proof.Machine.execMin x rd ra rb s
  | .max x rd ra rb => Sys2Proof.Machine.execMax x rd ra rb s
  | .minu x rd ra rb => Sys2Proof.Machine.execMinu x rd ra rb s
  | .maxu x rd ra rb => Sys2Proof.Machine.execMaxu x rd ra rb s
  | .clz x rd ra => Sys2Proof.Machine.execClz x rd ra s
  | .popc x rd ra => Sys2Proof.Machine.execPopc x rd ra s
  | .bfx x rd ra lsb wm1 => Sys2Proof.Machine.execBfx x rd ra lsb wm1 s
  | .bfi x rd ra lsb wm1 => Sys2Proof.Machine.execBfi x rd ra lsb wm1 s
  | .addi x rd ra ty imm => Sys2Proof.Machine.execAddi x rd ra ty imm s
  | .subi x rd ra ty imm => Sys2Proof.Machine.execSubi x rd ra ty imm s
  | .andi x rd ra ty imm => Sys2Proof.Machine.execAndi x rd ra ty imm s
  | .ori x rd ra ty imm => Sys2Proof.Machine.execOri x rd ra ty imm s
  | .xori x rd ra ty imm => Sys2Proof.Machine.execXori x rd ra ty imm s
  | .andni x rd ra ty imm => Sys2Proof.Machine.execAndni x rd ra ty imm s
  | .shli x rd ra ty imm => Sys2Proof.Machine.execShli x rd ra ty imm s
  | .shri x rd ra ty imm => Sys2Proof.Machine.execShri x rd ra ty imm s
  | .sari x rd ra ty imm => Sys2Proof.Machine.execSari x rd ra ty imm s
  | .roli x rd ra ty imm => Sys2Proof.Machine.execRoli x rd ra ty imm s
  | .muli x rd ra ty imm => Sys2Proof.Machine.execMuli x rd ra ty imm s
  | .mulhui x rd ra ty imm => Sys2Proof.Machine.execMulhui x rd ra ty imm s
  | .mulhsi x rd ra ty imm => Sys2Proof.Machine.execMulhsi x rd ra ty imm s
  | .mini x rd ra ty imm => Sys2Proof.Machine.execMini x rd ra ty imm s
  | .maxi x rd ra ty imm => Sys2Proof.Machine.execMaxi x rd ra ty imm s
  | .minui x rd ra ty imm => Sys2Proof.Machine.execMinui x rd ra ty imm s
  | .maxui x rd ra ty imm => Sys2Proof.Machine.execMaxui x rd ra ty imm s
  | .cmp x pd ra rb mode => Sys2Proof.Machine.execCmp x pd ra rb mode s
  | .cmpi x pd ra mode ty imm => Sys2Proof.Machine.execCmpi x pd ra mode ty imm s
  | .plog x pd pa pb mode => Sys2Proof.Machine.execPlog x pd pa pb mode s
  | .sel x rd ra rb p => Sys2Proof.Machine.execSel x rd ra rb p s
  | .mvs x wr r num => Sys2Proof.Machine.execMvs x wr r num s
  | .lih x rd ra imm => Sys2Proof.Machine.execLih x rd ra imm s
  | .qadd x rd ra rb => Sys2Proof.Machine.execQadd x rd ra rb s
  | .qsub x rd ra rb => Sys2Proof.Machine.execQsub x rd ra rb s
  | .qmul x rd ra rb => Sys2Proof.Machine.execQmul x rd ra rb s
  | .qmulw x rd ra rb => Sys2Proof.Machine.execQmulw x rd ra rb s
  | .qmac x rd ra rb => Sys2Proof.Machine.execQmac x rd ra rb s
  | .cmul x rd ra rb => Sys2Proof.Machine.execCmul x rd ra rb s
  | .cmac x rd ra rb => Sys2Proof.Machine.execCmac x rd ra rb s
  | .cmag2 x rd ra => Sys2Proof.Machine.execCmag2 x rd ra s
  | .qabs x rd ra => Sys2Proof.Machine.execQabs x rd ra s
  | .qneg x rd ra => Sys2Proof.Machine.execQneg x rd ra s
  | .shrr x rd ra rb => Sys2Proof.Machine.execShrr x rd ra rb s
  | .satw x rd ra wm1 => Sys2Proof.Machine.execSatw x rd ra wm1 s
  | .phase x rd ra => Sys2Proof.Machine.execPhase x rd ra s
  | .sqrtu x rd ra => Sys2Proof.Machine.execSqrtu x rd ra s
  | .qaddi x rd ra ty imm => Sys2Proof.Machine.execQaddi x rd ra ty imm s
  | .qmuli x rd ra ty imm => Sys2Proof.Machine.execQmuli x rd ra ty imm s
  | .qmulwi x rd ra ty imm => Sys2Proof.Machine.execQmulwi x rd ra ty imm s
  | .qmaci x rd ra ty imm => Sys2Proof.Machine.execQmaci x rd ra ty imm s
  | .ld x rd ra ty imm ecc => Sys2Proof.Machine.execLd x rd ra ty imm ecc s
  | .st x ra rb imm => Sys2Proof.Machine.execSt x ra rb imm s
  | .ldh x rd ra ty imm ecc => Sys2Proof.Machine.execLdh x rd ra ty imm ecc s
  | .sth x rd ra rb imm => Sys2Proof.Machine.execSth x rd ra rb imm s
  | .hbmStoreAck e tag => Sys2Proof.Machine.execHbmStoreAck e tag s
  | .atTarget x pair arg => Sys2Proof.Machine.execAtTarget x pair arg s
  | .atLaunch e => Sys2Proof.Machine.execAtLaunch e s
  | .tbegin x ts => Sys2Proof.Machine.execTbegin x ts s
  | .tend x => Sys2Proof.Machine.execTend x s
  | .postv x rd src line => Sys2Proof.Machine.execPostv x rd src line s
  | .postg x rd src line => Sys2Proof.Machine.execPostg x rd src line s
  | .rdv x rd ra current => Sys2Proof.Machine.execRdv x rd ra current s
  | .waitv x rd ra => Sys2Proof.Machine.execWaitv x rd ra s
  | .bv x ra val current off => Sys2Proof.Machine.execBv x ra val current off s
  | .csr x rd ra wr blk off => Sys2Proof.Machine.execCsr x rd ra wr blk off s
  | .sig x sync code => Sys2Proof.Machine.execSig x sync code s
  | .fence x inv => Sys2Proof.Machine.execFence x inv s
  | .dmak x rd ra d c => Sys2Proof.Machine.execDmak x rd ra d c s
  | .dmakAccept e tag => Sys2Proof.Machine.execDmakAccept e tag s
  | .halt x => Sys2Proof.Machine.execHalt x s
  | .vis x ts rep src ecc => Sys2Proof.Machine.execVis x ts rep src ecc s
  | .vmatch x ts rep src ecc hit => Sys2Proof.Machine.execVmatch x ts rep src ecc hit s
  | .vfail x site any clr off => Sys2Proof.Machine.execVfail x site any clr off s
  | .vstv x ra => Sys2Proof.Machine.execVstv x ra s
  | .vmask x src => Sys2Proof.Machine.execVmask x src s
  | .axi x k src ty imm => Sys2Proof.Machine.execAxi x k src ty imm s
  | .ayi x k src ty imm => Sys2Proof.Machine.execAyi x k src ty imm s
  | .adi x k src ty imm => Sys2Proof.Machine.execAdi x k src ty imm s
  | .astep x k pd mode => Sys2Proof.Machine.execAstep x k pd mode s
  | .agal x k base pd => Sys2Proof.Machine.execAgal x k base pd s
  | .adgen x k pair code bg => Sys2Proof.Machine.execAdgen x k pair code bg s
  | .ainv x k ka => Sys2Proof.Machine.execAinv x k ka s
  | .ard x rd k mode => Sys2Proof.Machine.execArd x rd k mode s
  | .ppmu x l mode range => Sys2Proof.Machine.execPpmu x l mode range s
  | .mppmu x rd l cur => Sys2Proof.Machine.execMppmu x rd l cur s
  | .smuc x ra mode range => Sys2Proof.Machine.execSmuc x ra mode range s
  | .msmu x rd cur => Sys2Proof.Machine.execMsmu x rd cur s
  | .madc x rd entry => Sys2Proof.Machine.execMadc x rd entry s
  | .tdca x t => Sys2Proof.Machine.execTdca x t s
  | .tdcr x rd t => Sys2Proof.Machine.execTdcr x rd t s
  | .lvw x src en lane dac => Sys2Proof.Machine.execLvw x src en lane dac s
  | .lvr x lane b => Sys2Proof.Machine.execLvr x lane b s
  | .lvq x rd l dac => Sys2Proof.Machine.execLvq x rd l dac s
  | .wplay x seg stepMode => Sys2Proof.Machine.execWplay x seg stepMode s
  | .wjump x seg => Sys2Proof.Machine.execWjump x seg s
  | .wstop x now => Sys2Proof.Machine.execWstop x now s
  | .wstep x => Sys2Proof.Machine.execWstep x s
  | .wtone x k par imm => Sys2Proof.Machine.execWtone x k par imm s
  | .wmark x rel sel lev => Sys2Proof.Machine.execWmark x rel sel lev s
  | .rint x k fifo post glob line => Sys2Proof.Machine.execRint x k fifo post glob line s
  | .rres x rd => Sys2Proof.Machine.execRres x rd s
  | .aqstart x demod c => Sys2Proof.Machine.execAqstart x demod c s
  | .aqstop x => Sys2Proof.Machine.execAqstop x s
  | .aqarm x u => Sys2Proof.Machine.execAqarm x u s
  | .aqmark x code => Sys2Proof.Machine.execAqmark x code s
  | .vectorFetch n index first cnt ecc => Sys2Proof.Machine.execVectorFetch n index first cnt ecc s
  | .starveCycle n => Sys2Proof.Machine.execStarveCycle n s
  | .starveVecWrite p n v => Sys2Proof.Machine.execStarveVecWrite p n v s
  | .apgScrWrite p n w v => Sys2Proof.Machine.execApgScrWrite p n w v s
  | .apgLmapWrite p n k l v => Sys2Proof.Machine.execApgLmapWrite p n k l v s
  | .sitemapWrite p n v => Sys2Proof.Machine.execSitemapWrite p n v s
  | .periodRecordRead n ts up => Sys2Proof.Machine.execPeriodRecordRead n ts up s
  | .fail n vcyc uis lo hi => Sys2Proof.Machine.execFail n vcyc uis lo hi s
  | .capture n vcyc ui lo hi => Sys2Proof.Machine.execCapture n vcyc ui lo hi s
  | .failRecordWrite n ecc => Sys2Proof.Machine.execFailRecordWrite n ecc s
  | .bitmapUpdate n ecc => Sys2Proof.Machine.execBitmapUpdate n ecc s
  | .ringReset p n => Sys2Proof.Machine.execRingReset p n s
  | .fringSizeWrite p n v => Sys2Proof.Machine.execFringSizeWrite p n v s
  | .fringRdWrite p n v => Sys2Proof.Machine.execFringRdWrite p n v s
  | .bmpClear p n k => Sys2Proof.Machine.execBmpClear p n k s
  | .bmpClearDone n k => Sys2Proof.Machine.execBmpClearDone n k s
  | .cellFail u ecc => Sys2Proof.Machine.execCellFail u ecc s
  | .repairSearch u ecc => Sys2Proof.Machine.execRepairSearch u ecc s
  | .clear p n k => Sys2Proof.Machine.execClear p n k s
  | .rauClearDone n k => Sys2Proof.Machine.execRauClearDone n k s
  | .seal p n k => Sys2Proof.Machine.execSeal p n k s
  | .rauSealDone n k => Sys2Proof.Machine.execRauSealDone n k s
  | .ocTrip n l => Sys2Proof.Machine.execOcTrip n l s
  | .ovTrip n l => Sys2Proof.Machine.execOvTrip n l s
  | .pinStatClear p n l v => Sys2Proof.Machine.execPinStatClear p n l v s
  | .laneCfgWrite p n l v => Sys2Proof.Machine.execLaneCfgWrite p n l v s
  | .commit p n ts => Sys2Proof.Machine.execCommit p n ts s
  | .fmtLoad p n ts up => Sys2Proof.Machine.execFmtLoad p n ts up s
  | .fmtCmdDone n => Sys2Proof.Machine.execFmtCmdDone n s
  | .formatStoreWrite p n w v => Sys2Proof.Machine.execFormatStoreWrite p n w v s
  | .formatStoreRead p n w up => Sys2Proof.Machine.execFormatStoreRead p n w up s
  | .handoverRequest n l => Sys2Proof.Machine.execHandoverRequest n l s
  | .prepareDone n => Sys2Proof.Machine.execPrepareDone n s
  | .takeoverSwitch n => Sys2Proof.Machine.execTakeoverSwitch n s
  | .returnSwitch n => Sys2Proof.Machine.execReturnSwitch n s
  | .handoverDefer n => Sys2Proof.Machine.execHandoverDefer n s
  | .toneWrite p n k r v => Sys2Proof.Machine.execToneWrite p n k r v s
  | .play p n => Sys2Proof.Machine.execPlay p n s
  | .playStep p n => Sys2Proof.Machine.execPlayStep p n s
  | .jump p n => Sys2Proof.Machine.execJump p n s
  | .step p n => Sys2Proof.Machine.execStep p n s
  | .stopEnd p n => Sys2Proof.Machine.execStopEnd p n s
  | .txStopNow p n => Sys2Proof.Machine.execTxStopNow p n s
  | .txRequestArrival n => Sys2Proof.Machine.execTxRequestArrival n s
  | .playDecisionPoint n => Sys2Proof.Machine.execPlayDecisionPoint n s
  | .segmentBoundary n ecc list env => Sys2Proof.Machine.execSegmentBoundary n ecc list env s
  | .tabDataAccess p n rx wr => Sys2Proof.Machine.execTabDataAccess p n rx wr s
  | .tabSelWrite p n rx v => Sys2Proof.Machine.execTabSelWrite p n rx v s
  | .mkrouteWrite p n m v => Sys2Proof.Machine.execMkrouteWrite p n m v s
  | .markerEdge n m level => Sys2Proof.Machine.execMarkerEdge n m level s
  | .demodWrite p n k r v => Sys2Proof.Machine.execDemodWrite p n k r v s
  | .demodWinWrite p n k v => Sys2Proof.Machine.execDemodWinWrite p n k v s
  | .readoutResult n k codes word ecc => Sys2Proof.Machine.execReadoutResult n k codes word ecc s
  | .resDataRead p n => Sys2Proof.Machine.execResDataRead p n s
  | .resFlush p n => Sys2Proof.Machine.execResFlush p n s
  | .arm p n units => Sys2Proof.Machine.execArm p n units s
  | .aqStop p n => Sys2Proof.Machine.execAqStop p n s
  | .aqRingReset p n => Sys2Proof.Machine.execAqRingReset p n s
  | .rxCfgWrite p n v => Sys2Proof.Machine.execRxCfgWrite p n v s
  | .aqSizeWrite p n v => Sys2Proof.Machine.execAqSizeWrite p n v s
  | .triggerFire n codes e => Sys2Proof.Machine.execTriggerFire n codes e s
  | .holdoffEnd n codes e => Sys2Proof.Machine.execHoldoffEnd n codes e s
  | .maskViolation n codes e => Sys2Proof.Machine.execMaskViolation n codes e s
  | .acqRecordWrite n => Sys2Proof.Machine.execAcqRecordWrite n s
  | .trainFrame k f => Sys2Proof.Machine.execTrainFrame k f s
  | .alignDone k => Sys2Proof.Machine.execAlignDone k s
  | .emptyFrame k f => Sys2Proof.Machine.execEmptyFrame k f s
  | .timeFrame k f => Sys2Proof.Machine.execTimeFrame k f s
  | .slotnumFrame k f => Sys2Proof.Machine.execSlotnumFrame k f s
  | .resyncAtFrame k f => Sys2Proof.Machine.execResyncAtFrame k f s
  | .resyncLoadFrame k f => Sys2Proof.Machine.execResyncLoadFrame k f s
  | .messageFrame k f => Sys2Proof.Machine.execMessageFrame k f s
  | .delayFrame k f flight => Sys2Proof.Machine.execDelayFrame k f flight s
  | .failedFrame k => Sys2Proof.Machine.execFailedFrame k s
  | .join p => Sys2Proof.Machine.execJoin p s
  | .leave p => Sys2Proof.Machine.execLeave p s
  | .recal p => Sys2Proof.Machine.execRecal p s
  | .retrain p => Sys2Proof.Machine.execRetrain p s
  | .decCfgWrite p v => Sys2Proof.Machine.execDecCfgWrite p v s
  | .decLvOpWrite p r v => Sys2Proof.Machine.execDecLvOpWrite p r v s
  | .msgTx p v => Sys2Proof.Machine.execMsgTx p v s
  | .msgRxRead p => Sys2Proof.Machine.execMsgRxRead p s
  | .verdictSlotOpen => Sys2Proof.Machine.execVerdictSlotOpen s
  | .slotReduce => Sys2Proof.Machine.execSlotReduce s
  | .localResultVisible => Sys2Proof.Machine.execLocalResultVisible s
  | .upwardFrameLaunch => Sys2Proof.Machine.execUpwardFrameLaunch s
  | .downwardFrameLaunch => Sys2Proof.Machine.execDownwardFrameLaunch s
  | .globalResultVisible => Sys2Proof.Machine.execGlobalResultVisible s
  | .lvlCodeWrite p n l d v => Sys2Proof.Machine.execLvlCodeWrite p n l d v s
  | .rangeWrite p n l v => Sys2Proof.Machine.execRangeWrite p n l v s
  | .lvlEnWrite p n l v => Sys2Proof.Machine.execLvlEnWrite p n l v s
  | .rangeSwitch n l => Sys2Proof.Machine.execRangeSwitch n l s
  | .rangeCodesApply n l => Sys2Proof.Machine.execRangeCodesApply n l s
  | .rangeReconnect n l => Sys2Proof.Machine.execRangeReconnect n l s
  | .lvlclrAssert => Sys2Proof.Machine.execLvlclrAssert s
  | .lvlclrRelease => Sys2Proof.Machine.execLvlclrRelease s
  | .supervisionCheck n l d m1 m2 => Sys2Proof.Machine.execSupervisionCheck n l d m1 m2 s
  | .ppmuWrite p n l v => Sys2Proof.Machine.execPpmuWrite p n l v s
  | .settlingEnd src => Sys2Proof.Machine.execSettlingEnd src s
  | .smuCfgWrite p n v => Sys2Proof.Machine.execSmuCfgWrite p n v s
  | .smuClampWrite p n v => Sys2Proof.Machine.execSmuClampWrite p n v s
  | .smuRampDone n => Sys2Proof.Machine.execSmuRampDone n s
  | .senseFault n => Sys2Proof.Machine.execSenseFault n s
  | .run p n on => Sys2Proof.Machine.execRun p n on s
  | .kick p n entry => Sys2Proof.Machine.execKick p n entry s
  | .madcTimerEvent n => Sys2Proof.Machine.execMadcTimerEvent n s
  | .madcEntryDue n entry => Sys2Proof.Machine.execMadcEntryDue n entry s
  | .madcConversionStart n settles => Sys2Proof.Machine.execMadcConversionStart n settles s
  | .madcResult n samples clamped openWire => Sys2Proof.Machine.execMadcResult n samples clamped openWire s
  | .mseqCommit p n entry hi => Sys2Proof.Machine.execMseqCommit p n entry hi s
  | .madcDataRead p n => Sys2Proof.Machine.execMadcDataRead p n s
  | .madcResRead p n entry => Sys2Proof.Machine.execMadcResRead p n entry s
  | .tdcArm p n t => Sys2Proof.Machine.execTdcArm p n t s
  | .disarm p n t => Sys2Proof.Machine.execDisarm p n t s
  | .tdcStart n t sub => Sys2Proof.Machine.execTdcStart n t sub s
  | .tdcEdgeCount n t sub => Sys2Proof.Machine.execTdcEdgeCount n t sub s
  | .tdcStop n t sub => Sys2Proof.Machine.execTdcStop n t sub s
  | .tdcTimeout n t => Sys2Proof.Machine.execTdcTimeout n t s
  | .tdcResultWrite n t => Sys2Proof.Machine.execTdcResultWrite n t s
  | .tdcResRead p n t => Sys2Proof.Machine.execTdcResRead p n t s
  | .mcsLoad p => Sys2Proof.Machine.execMcsLoad p s
  | .reload p => Sys2Proof.Machine.execReload p s
  | .mcsLoadDone ecc readBackOk => Sys2Proof.Machine.execMcsLoadDone ecc readBackOk s
  | .init p which => Sys2Proof.Machine.execInit p which s
  | .hbmFillDone k => Sys2Proof.Machine.execHbmFillDone k s
  | .patrolScrub k ecc => Sys2Proof.Machine.execPatrolScrub k ecc s
  | .bar2Read a bytes ecc => Sys2Proof.Machine.execBar2Read a bytes ecc s
  | .bar2Write a data ecc => Sys2Proof.Machine.execBar2Write a data ecc s
  | .go p d c => Sys2Proof.Machine.execGo p d c s
  | .abort p d c => Sys2Proof.Machine.execAbort p d c s
  | .dmaReset p d => Sys2Proof.Machine.execDmaReset p d s
  | .channelService d => Sys2Proof.Machine.execChannelService d s
  | .descriptorTake d c host ecc => Sys2Proof.Machine.execDescriptorTake d c host ecc s
  | .dmaBurst d c host ecc => Sys2Proof.Machine.execDmaBurst d c host ecc s
  | .preqAssert d c => Sys2Proof.Machine.execPreqAssert d c s
  | .busError d cause addr space wr reads => Sys2Proof.Machine.execBusError d cause addr space wr reads s
  | .dmaCompletionTimeout d addr space wr reads => Sys2Proof.Machine.execDmaCompletionTimeout d addr space wr reads s
  | .pwrEnWrite p v => Sys2Proof.Machine.execPwrEnWrite p v s
  | .domainPowered d => Sys2Proof.Machine.execDomainPowered d s
  | .domainPowerGone d => Sys2Proof.Machine.execDomainPowerGone d s
  | .seasonCmdSummer p => Sys2Proof.Machine.execSeasonCmdSummer p s
  | .seasonCmdSpring p => Sys2Proof.Machine.execSeasonCmdSpring p s
  | .seasonCmdWinter p => Sys2Proof.Machine.execSeasonCmdWinter p s
  | .winterEntrySelfRefresh => Sys2Proof.Machine.execWinterEntrySelfRefresh s
  | .autumnForceStop => Sys2Proof.Machine.execAutumnForceStop s
  | .autumnPowerDown => Sys2Proof.Machine.execAutumnPowerDown s
  | .winterAccess p a wr => Sys2Proof.Machine.execWinterAccess p a wr s
  | .wake p => Sys2Proof.Machine.execWake p s
  | .touchdown => Sys2Proof.Machine.execTouchdown s
  | .wakeStart => Sys2Proof.Machine.execWakeStart s
  | .wakePowerUp => Sys2Proof.Machine.execWakePowerUp s
  | .wakeHbmReady => Sys2Proof.Machine.execWakeHbmReady s
  | .wakeSpring => Sys2Proof.Machine.execWakeSpring s
  | .firmwareLoadDone fw blob ecc => Sys2Proof.Machine.execFirmwareLoadDone fw blob ecc s
  | .hostGo p => Sys2Proof.Machine.execHostGo p s
  | .supplyLoss vddhbm => Sys2Proof.Machine.execSupplyLoss vddhbm s
  | .pwrGoodRise => Sys2Proof.Machine.execPwrGoodRise s
  | .vaonCollapse => Sys2Proof.Machine.execVaonCollapse s
  | .calStart u => Sys2Proof.Machine.execCalStart u s
  | .calComplete u good => Sys2Proof.Machine.execCalComplete u good s
  | .req p => Sys2Proof.Machine.execReq p s
  | .save p => Sys2Proof.Machine.execSave p s
  | .saveDone failed => Sys2Proof.Machine.execSaveDone failed s
  | .calLoadDone badWorking badFactory => Sys2Proof.Machine.execCalLoadDone badWorking badFactory s
  | .thermalSample readings => Sys2Proof.Machine.execThermalSample readings s
  | .suspectClear p k => Sys2Proof.Machine.execSuspectClear p k s
  | .throttleGapEnd e => Sys2Proof.Machine.execThrottleGapEnd e s
  | .aonSensorSample reading => Sys2Proof.Machine.execAonSensorSample reading s
  | .faultArrival => Sys2Proof.Machine.execFaultArrival s
  | .faultAck p classes => Sys2Proof.Machine.execFaultAck p classes s
  | .faultStateEnd => Sys2Proof.Machine.execFaultStateEnd s
  | .functionLevelReset => Sys2Proof.Machine.execFunctionLevelReset s
  | .pciePerst => Sys2Proof.Machine.execPciePerst s
  | .linkDown => Sys2Proof.Machine.execLinkDown s
  | .msixUnmask u => Sys2Proof.Machine.execMsixUnmask u s
  | .chainSelectFall => Sys2Proof.Machine.execChainSelectFall s
  | .chainFrameDiscard count frame => Sys2Proof.Machine.execChainFrameDiscard count frame s
  | .nop count => Sys2Proof.Machine.execNop count s
  | .read count addr => Sys2Proof.Machine.execRead count addr s
  | .write count addr data => Sys2Proof.Machine.execWrite count addr data s
  | .readFixed count addr => Sys2Proof.Machine.execReadFixed count addr s
  | .len80 count => Sys2Proof.Machine.execLen80 count s
  | .chainCommandDone => Sys2Proof.Machine.execChainCommandDone s
  | .chnLenWrite p v => Sys2Proof.Machine.execChnLenWrite p v s
  | .cardGo p => Sys2Proof.Machine.execCardGo p s
  | .cardTransactionDone miso => Sys2Proof.Machine.execCardTransactionDone miso s
  | .cirLoad p => Sys2Proof.Machine.execCirLoad p s
  | .cirLoadDone copyA copyB => Sys2Proof.Machine.execCirLoadDone copyA copyB s
  | .cirSave p => Sys2Proof.Machine.execCirSave p s
  | .td p => Sys2Proof.Machine.execTd p s
  | .cirWriteback => Sys2Proof.Machine.execCirWriteback s
  | .cirWritebackDone good => Sys2Proof.Machine.execCirWritebackDone good s
  | .xipRead p w flash => Sys2Proof.Machine.execXipRead p w flash s
  | .xipWrite p w v => Sys2Proof.Machine.execXipWrite p w v s
  | .xipErase p v => Sys2Proof.Machine.execXipErase p v s
  | .xipStatusPoll wip => Sys2Proof.Machine.execXipStatusPoll wip s
  | .xipTimeout => Sys2Proof.Machine.execXipTimeout s
  | .pcieLinkUp width speed bme => Sys2Proof.Machine.execPcieLinkUp width speed bme s
  | .rxAdcOverrange n => Sys2Proof.Machine.execRxAdcOverrange n s
  | .txSampleClip n => Sys2Proof.Machine.execTxSampleClip n s
  | .clampChange src on => Sys2Proof.Machine.execClampChange src on s

end Sys2Proof.Machine
end

