-- ==== Sys2Proof/Safety.lean ====
section
/-! DEFINITION. What counts as a safe run: the canonical forms of the state's tables, and steps that end in a state. -/

namespace Sys2Proof.Machine

/-- HBM in its canonical form: addresses strictly rising, no byte listed that reads 0 unlisted. -/
abbrev Memory.wf (m : List Host.Cell) : Bool := tableWf (fun _ => 0) m

/-- The register table in its canonical form. -/
abbrev Registers.wf (b : Table Word) : Bool := tableWf barReset b

/-- A step ended in a next state. -/
def Completes (o : Host.Outcome State Fault Refusal) : Prop := ∃ t, o = .next t

end Sys2Proof.Machine
end

