-- ==== Sys2Proof/WellFormed.lean ====
section
/-! DEFINITION. Which commands have the shape the spec gives them: the lengths of their list operands and the
alignment of their addresses. -/

namespace Sys2Proof

/-- A command has the shape its rule gives it. -/
def wellFormed : Instr → Bool
  | .loReadLatch _ a => a.toNat % 4 = 0                       -- R6
  | .loWriteHold _ a _ => a.toNat % 4 = 0
  | .hiWritePair _ a _ => a.toNat % 4 = 0
  | .thermalSample rs => rs.length = 48                       -- R379
  | .fail _ _ uis _ _ => decide (uis.length ≤ 16)             -- R159: at most 16 unit intervals
  | .cirLoadDone a b => a.length = 32 && b.length = 32        -- R420
  | .bar2Read a n _ => decide (0 < n) && decide (a.toNat + n ≤ 2 ^ 36)   -- R326
  | .bar2Write a d _ => decide (0 < d.length) && decide (a.toNat + d.length ≤ 2 ^ 36)
  | _ => true

end Sys2Proof
end

