-- ==== Sys2Proof/Certificates/Slice0/Obligations.lean ====
section
/-! DEFINITION. The statements about the model, and the words they use. `u` is the state in which an instruction issues,
`t` the state after it. Where a statement rests on a choice of the model, its docstring names the log entry. -/

namespace Sys2Proof.Machine

/-! Words of the statements -/

/-- A command completes: exec answers a next state, of which P holds. -/
def Does (i : Instr) (s : State) (P : State → Prop) : Prop := ∃ t, exec i s = .next t ∧ P t

/-- The state in which the next instruction of engine e issues: a vector issue of its own has come to its end, and the
clock to the slot (R74, R75). -/
def issueAt (s : State) (e : Nat) : State :=
  let r := s.vecWait e
  r.advanceTo (if (r.eng e).timed then r.slotTick e else (r.eng e).slotAt)

/-- Engine e is about to issue a word that was fetched good, and x says so (R66, R69). -/
def Fetches (s : State) (x : Iss) : Prop := (s.vecWait x.eng.val).ready x.eng.val = true ∧ x.fetch = .ok

/-- The word names an instruction that the engine takes here: its group, its operands, and timed-legal in a timed
section (R59, R65). -/
def Legal (u : State) (x : Iss) (f : Form) : Prop :=
  accepts x.eng.val f.grp = true ∧ f.ok = true ∧ ((u.eng x.eng.val).timed = true → f.timedOk = true)

/-- It issues and executes: its guard holds, its microword is good, its registers and its tag are free, and untimed code
does not stall at it (R62, R71, R313). -/
def Issues (s : State) (x : Iss) (f : Form) : Prop :=
  let u := issueAt s x.eng.val
  let y := u.eng x.eng.val
  Fetches s x ∧ Legal u x f ∧ x.ucode = .ok ∧ y.guard x = true ∧ y.free f = true ∧ (y.timed = true ∨ f.stall = false)

/-- The program counter of an engine moved past the instruction. -/
def moved (y : Eng) : Eng := { y with lastPc := y.pc, pc := y.pc + 1, atTick := none, gapDone := false }

/-- Two records of an engine that differ in the count of slots at most. -/
def SameEng (y z : Eng) : Prop :=
  { y with slot := 0, slotAt := 0, secLen := 0 } = { z with slot := 0, slotAt := 0, secLen := 0 }

/-- An instruction that is no vector issue fills one slot of a timed section, and none outside one (R74, R75). -/
def OneSlot (y z : Eng) : Prop :=
  if y.timed then (y.st = .running → z.slot = y.slot + 1)
  else z.slot = y.slot ∧ z.slotAt = y.slotAt ∧ z.secLen = y.secLen

/-- The lanes hold their levels: symbol X drives nothing new (R74, R129); outside a timed section no lane changes. -/
def LanesHeld (u t : State) (e : Nat) : Prop :=
  ((u.eng e).timed = false → t.lanes = u.lanes) ∧
  ∀ k, { t.lane k with quiet := 0, q8from := 0, q8to := 0 } = { u.lane k with quiet := 0, q8from := 0, q8to := 0 }

/-- Engine e alone has changed among the engines, and holds z but for its slots. -/
def EngOnly (u t : State) (e : Nat) (z : Eng) : Prop :=
  SameEng (t.eng e) z ∧ OneSlot (u.eng e) (t.eng e) ∧ (∀ k, k ≠ e → t.eng k = u.eng k)

/-- The same, and the lanes hold their levels. -/
def EngIs (u t : State) (e : Nat) (z : Eng) : Prop := EngOnly u t e z ∧ LanesHeld u t e

/-- Every register but those at some offsets reads as before. -/
def RegsBut (s t : State) (l : List Nat) : Prop := ∀ a, a ∉ l → t.rd a = s.rd a

/-- A count goes up by one, below its limit (R13). -/
def CountsUp (s t : State) (a : Nat) : Prop := (s.rd a).toNat < 2 ^ 32 - 1 → t.rd a = s.rd a + 1

/-- An instruction that acts on its engine alone: the engine holds z, and nothing else of the state has changed. -/
def Becomes (u : State) (e : Nat) (z : Eng) (t : State) : Prop :=
  EngIs u t e z ∧ { t with engs := u.engs, lanes := u.lanes } = u

/-- A tag is taken for a destination: the lowest free one (R71, R73). -/
def Taken (y : Eng) (v : TagUse) (z : Eng) : Prop :=
  ∃ k, y.freeTag = some k ∧ z = { moved y with tags := y.tags ++ [(k, v)] }

/-- A fault waits for the collector, none that waited before is gone, and no other is new. -/
def Raises (u t : State) (cls lvl kind idx : Nat) : Prop :=
  t.faults = faultInsert ⟨cls, lvl, kind, idx, 0, u.full, u.now⟩ u.faults

/-- Engine e stops at an address, out of any timed section, and STOP_INFO says why (R83, R86). -/
def Stops (u t : State) (e reason addr : Nat) (past : Bool) : Prop :=
  (t.eng e).st = .stopping ∧ (t.eng e).pc = addr ∧ (t.eng e).wait = .none ∧ (t.eng e).timed = false ∧ (t.eng e).slot = 0 ∧
  (t.eng e).stopPend = false ∧ (t.eng e).suspPend = false ∧
  t.rd (engA e 0x010) = BitVec.ofNat 32 (reason * 2 ^ 24 + (u.eng e).timed.toNat * 2 ^ 23 + past.toNat * 2 ^ 14 + addr % 2 ^ 14)

/-- A path other than CSR reaches the register at a BAR0 offset: no reset, no season that bars it, its domain on (R345,
R354, R359, R404). -/
def Reached (s : State) (p : Path) (a : Nat) : Prop :=
  (∀ e, p ≠ .csr e) ∧ s.seas.resetLow = false ∧ (domainOf a = 0 ∨ (s.season ≠ 0 ∧ s.season ≠ 4 ∧ s.season ≠ 5)) ∧
  s.dom (domainOf a) = true

end Sys2Proof.Machine

namespace Sys2Proof.Machine

/-! What each instruction of an engine needs to issue -/

/-- Form of an instruction with sources, destination and tag. -/
def frm (grp : Nat) (srcs dst : List Gr) (tag : Bool := false) (ok : Bool := true) (timedOk : Bool := true) : Form :=
  { grp := grp, srcs := srcs, dst := dst, tag := tag, ok := ok, timedOk := timedOk }

/-- The engine, guard and form of each instruction of the FLOW, INT, FIX and MEM groups: its group number (R59), the
registers it reads and writes, whether it takes a tag (R73), the reserved values of its operands (R94, R97) and whether it is
timed-legal (R90–R102). -/
def formA (s : State) : Instr → Option (Iss × Form)
  | .br x off => some (x, { frm 0 [] [] with target := some ((s.eng x.eng.val).pc + off.toInt) })
  | .brc x ra md off => some (x, { frm 0 [ra] [] (ok := decide (md.toNat ≤ 5) || (decide (64 ≤ md.toNat) && decide (md.toNat ≤ 191)))
      with target := some ((s.eng x.eng.val).pc + off.toInt), cond := true })
  | .loop x _ off => some (x, { frm 0 [] [] with target := some ((s.eng x.eng.val).pc + off.toInt) })
  | .call x off => some (x, { frm 0 [] [] with target := some ((s.eng x.eng.val).pc + off.toInt) })
  | .callr x ra | .brr x ra => some (x, frm 0 [ra] [])
  | .ret x => some (x, frm 0 [] [])
  | .ldc x _ ra _ _ => some (x, frm 0 [ra] [])
  | .rdc x rd _ => some (x, frm 0 [] [rd])
  | .add x rd ra rb | .sub x rd ra rb | .and x rd ra rb | .or x rd ra rb | .xor x rd ra rb | .andn x rd ra rb
  | .shl x rd ra rb | .shr x rd ra rb | .sar x rd ra rb | .rol x rd ra rb | .mul x rd ra rb | .mulhu x rd ra rb
  | .mulhs x rd ra rb | .min x rd ra rb | .max x rd ra rb | .minu x rd ra rb | .maxu x rd ra rb
  | .sel x rd ra rb _ => some (x, frm 1 [ra, rb] [rd])
  | .clz x rd ra | .popc x rd ra | .bfx x rd ra _ _ | .lih x rd ra _ => some (x, frm 1 [ra] [rd])
  | .bfi x rd ra _ _ => some (x, frm 1 [ra, rd] [rd])
  | .addi x rd ra _ _ | .subi x rd ra _ _ | .andi x rd ra _ _ | .ori x rd ra _ _ | .xori x rd ra _ _ | .andni x rd ra _ _
  | .shli x rd ra _ _ | .shri x rd ra _ _ | .sari x rd ra _ _ | .roli x rd ra _ _ | .muli x rd ra _ _ | .mulhui x rd ra _ _
  | .mulhsi x rd ra _ _ | .mini x rd ra _ _ | .maxi x rd ra _ _ | .minui x rd ra _ _ | .maxui x rd ra _ _ =>
      some (x, frm 1 [ra] [rd])
  | .cmp x _ ra rb _ => some (x, frm 1 [ra, rb] [])
  | .cmpi x _ ra _ _ _ => some (x, frm 1 [ra] [])
  | .plog x _ _ _ mode => some (x, frm 1 [] [] (ok := decide (mode.toNat ≤ 4)))
  | .mvs x wr r _ => some (x, if wr then frm 1 [r] [] else frm 1 [] [r])
  | .qadd x rd ra rb | .qsub x rd ra rb | .qmul x rd ra rb | .qmulw x rd ra rb | .cmul x rd ra rb | .shrr x rd ra rb =>
      some (x, frm 2 [ra, rb] [rd])
  | .qmac x rd ra rb | .cmac x rd ra rb => some (x, frm 2 [ra, rb, rd] [rd])
  | .cmag2 x rd ra | .qabs x rd ra | .qneg x rd ra | .satw x rd ra _ => some (x, frm 2 [ra] [rd])
  | .phase x rd ra | .sqrtu x rd ra => some (x, frm 2 [ra] [rd] (tag := true))
  | .qaddi x rd ra _ _ | .qmuli x rd ra _ _ | .qmulwi x rd ra _ _ => some (x, frm 2 [ra] [rd])
  | .qmaci x rd ra _ _ => some (x, frm 2 [ra, rd] [rd])
  | .ld x rd ra _ _ _ => some (x, frm 3 [ra] [rd] (tag := true))
  | .st x ra rb _ => some (x, frm 3 [ra, rb] [])
  | .ldh x rd ra _ _ _ => some (x, frm 3 [ra] [rd] (tag := true) (timedOk := false))
  | .sth x rd ra rb _ => some (x, frm 3 [ra, rb] [rd] (tag := true) (timedOk := false))
  | _ => none

/-- The registers an operand names. -/
def postSrcRegs : PostSrc → List Gr
  | .reg r => [r]
  | .const _ => []

/-- The same of the TIME, VEC, APG, MEAS, LVL, WAVE, READ, ACQ and SYS groups. -/
def formB (s : State) : Instr → Option (Iss × Form)
  | .atTarget x _ arg => some (x, { frm 4 (match arg with | .register r => [r] | _ => []) [] (timedOk := false) with keepAt := true })
  | .tbegin x ts => some (x, { frm 4 [] [] (timedOk := false) (ok := decide (x.eng.val < 64) || ts = 0)
      with keepAt := true, vec := some ((s.eng x.eng.val).ts, 0) })
  | .tend x => some (x, { frm 4 [] [] (ok := (s.eng x.eng.val).timed) with vec := some ((s.eng x.eng.val).ts, 0) })
  | .postv x rd src _ => some (x, frm 4 (postSrcRegs src) [rd])
  | .postg x rd src _ => some (x, frm 4 (postSrcRegs src) [rd])
  | .rdv x rd ra cur => some (x, { frm 4 [ra] [rd] with stall := s.verdictStall x ra cur })
  | .waitv x rd ra => some (x, frm 4 [ra] [rd] (timedOk := false))
  | .bv x ra _ cur off => some (x, { frm 4 [ra] [] with
      stall := s.verdictStall x ra cur, target := some ((s.eng x.eng.val).pc + off.toInt), cond := true })
  | .vis x ts rep src _ => some (x, { frm 5 (match src with | .literal r => [r] | _ => []) [] with
      vec := some (ts, rep.toNat + 1), stall := !(s.eng x.eng.val).timed && s.vecStall x.eng.val ts src })
  | .vmatch x ts rep src _ _ => some (x, { frm 5 (match src with | .literal r => [r] | _ => []) [] with
      vec := some (ts, rep.toNat + 1), stall := !(s.eng x.eng.val).timed && s.vecStall x.eng.val ts src })
  | .vfail x _ _ _ off => some (x, { frm 5 [] [] with target := some ((s.eng x.eng.val).pc + off.toInt), cond := true })
  | .vstv x ra => some (x, frm 5 [ra] [])
  | .vmask x src => some (x, frm 5 (match src with | .reg r => [r] | _ => []) [])
  | .axi x _ src _ _ | .ayi x _ src _ _ | .adi x _ src _ _ => some (x, frm 6 (match src with | .reg r => [r] | _ => []) [])
  | .astep x _ _ mode => some (x, frm 6 [] [] (ok := decide (mode.toNat ≤ 4)))
  | .agal x _ _ _ => some (x, frm 6 [] [])
  | .adgen x _ _ code _ => some (x, frm 6 [] [] (ok := decide (code.toNat ≤ 4)))
  | .ainv x _ _ => some (x, frm 6 [] [])
  | .ard x rd _ mode => some (x, frm 6 [] [rd] (ok := decide (mode.toNat ≤ 2)))
  | .ppmu x _ mode range => some (x, frm 7 [] [] (ok := decide (mode.toNat ≤ 4) && decide (range.toNat ≤ 4)))
  | .mppmu x rd _ _ => some (x, frm 7 [] [rd] (tag := true))
  | .smuc x ra mode range => some (x, frm 7 [ra] [] (ok := decide (mode.toNat ≤ 2) && decide (range.toNat ≤ 5)))
  | .msmu x rd _ => some (x, frm 7 [] [rd] (tag := true))
  | .madc x rd _ => some (x, frm 7 [] [rd] (tag := true))
  | .tdca x _ => some (x, frm 7 [] [])
  | .tdcr x rd _ => some (x, frm 7 [] [rd] (tag := true))
  | .lvw x src _ _ dac => some (x, frm 8 (match src with | .reg r => [r] | _ => []) [] (ok := decide (dac.toNat ≤ 8)))
  | .lvr x _ _ => some (x, frm 8 [] [])
  | .lvq x rd _ dac => some (x, frm 8 [] [rd] (ok := decide (dac.toNat ≤ 8)))
  | .wplay x _ _ | .wjump x _ | .wstop x _ | .wstep x | .wmark x _ _ _ => some (x, frm 9 [] [])
  | .wtone x _ par imm => some (x, frm 9 [] [] (ok := par.toNat % 2 = 0 || imm.toNat / 2 ^ 16 = 0))
  | .rint x _ _ _ glob line => some (x, frm 10 [] [] (ok := !glob || decide (line.toNat < 64)))
  | .rres x rd => some (x, frm 10 [] [rd] (tag := true))
  | .aqstart x _ _ | .aqstop x | .aqarm x _ | .aqmark x _ => some (x, frm 11 [] [])
  | .csr x rd ra wr blk off => some (x, frm 12 (if wr then [ra] else []) [rd] (tag := true) (timedOk := false)
      (ok := csrOk x.eng.val blk.toNat (4 * off.toNat) wr))
  | .sig x sync _ => some (x, { frm 12 [] [] (timedOk := !sync) with
      stall := !sync && !(s.eng x.eng.val).timed && decide (4 ≤ (s.eng x.eng.val).sigQ.length) })
  | .fence x _ => some (x, { frm 12 [] [] (timedOk := false) with stall := !(s.eng x.eng.val).tags.isEmpty })
  | .dmak x rd ra _ _ => some (x, frm 12 [ra] [rd] (tag := true) (timedOk := false))
  | .halt x => some (x, frm 12 [] [] (timedOk := false))
  | _ => none

/-- Every instruction of an engine. -/
def formOf (s : State) (i : Instr) : Option (Iss × Form) := (formA s i).or (formB s i)

end Sys2Proof.Machine

open Sys2Proof Sys2Proof.Machine

/-- R62: an instruction whose guard does not hold changes nothing but the program counter and, in a timed section, the slots it
fills. R71, R80: in a timed section an instruction whose register or tag is not free is a TIMING fault at level 2, counted,
and stops the engine. Outside one the engine stalls at it: the command changes nothing (log 3). -/
def Obligations.GuardsAndBusyOperands : Prop :=
  (∀ s i x f, formOf s i = some (x, f) → Fetches s x →
     let u := issueAt s x.eng.val
     Legal u x f → (u.eng x.eng.val).guard x = false →
     Does i s fun t =>
       (t.eng x.eng.val).pc = (u.eng x.eng.val).pc + 1 ∧
       { t.eng x.eng.val with slot := 0, slotAt := 0, secLen := 0, ts := 0 }
         = { moved (u.eng x.eng.val) with slot := 0, slotAt := 0, secLen := 0, ts := 0 } ∧
       (∀ k, k ≠ x.eng.val → t.eng k = u.eng k) ∧ (f.vec = none → OneSlot (u.eng x.eng.val) (t.eng x.eng.val)) ∧
       LanesHeld u t x.eng.val ∧ { t with engs := u.engs, lanes := u.lanes, pes := u.pes } = u) ∧
  (∀ s i x f, formOf s i = some (x, f) → Fetches s x →
     let u := issueAt s x.eng.val
     Legal u x f → x.ucode = .ok → (u.eng x.eng.val).guard x = true →
     ((u.eng x.eng.val).timed = true → (u.eng x.eng.val).free f = false →
       Does i s fun t => Stops u t x.eng.val 5 (u.eng x.eng.val).pc false ∧
         Raises u t 4 2 (if x.eng.val < 64 then 1 else 2) (x.eng.val % 64) ∧
         CountsUp u t (engA x.eng.val 0x024)) ∧
     ((u.eng x.eng.val).timed = false → ((u.eng x.eng.val).free f = false ∨ f.stall = true) → exec i s = .next s))

/-- R59, R64, R65: a word whose group the engine does not take, with a reserved operand, or illegal in a timed section stops its
engine with ILLEGAL at level 2, whatever its guard. R69, R313, R323: an uncorrectable word, fetched or of the microcode, is a
machine check: the engine stops. -/
def Obligations.WordsThatStop : Prop :=
  (∀ s i x f, formOf s i = some (x, f) → Fetches s x →
     let u := issueAt s x.eng.val
     ¬ Legal u x f →
     Does i s fun t => Stops u t x.eng.val 4 (u.eng x.eng.val).pc false ∧
       Raises u t 3 2 (if x.eng.val < 64 then 1 else 2) (x.eng.val % 64) ∧ t.hbm = u.hbm) ∧
  (∀ s i x f, formOf s i = some (x, f) → (s.vecWait x.eng.val).ready x.eng.val = true →
     let u := issueAt s x.eng.val
     (x.fetch = .ue ∨ (x.fetch = .ok ∧ Legal u x f ∧ (u.eng x.eng.val).guard x = true ∧ x.ucode = .ue)) →
     Does i s fun t => Stops u t x.eng.val 6 (u.eng x.eng.val).pc false ∧
       Raises u t 2 2 (if x.eng.val < 64 then 1 else 2) (x.eng.val % 64) ∧
       (x.ucode = .ue → x.fetch = .ok → t.tst (mcsA 0x004) 30 = true))

namespace Sys2Proof.Machine

/-! What the instructions of the FLOW, INT, FIX and APG groups compute -/

/-- An immediate as R61 widens it. -/
def immOf (ty : ImmTy) (imm : Word) : Word64 :=
  match ty with
  | .u32 => BitVec.ofNat 64 imm.toNat
  | .s32 => BitVec.ofInt 64 imm.toInt
  | .q1_31 => BitVec.ofInt 64 (imm.toInt * 2 ^ 32)
  | .q16_16 => BitVec.ofInt 64 (imm.toInt * 2 ^ 16)

/-- The two-operand operations of the INT group, and those of an immediate (R96, R98). -/
def aluOf (a b : Word64) (i : Instr) : Option Word64 :=
  let sh := b.toNat % 64
  match i with
  | .add .. | .addi .. => some (a + b)
  | .sub .. | .subi .. => some (a - b)
  | .and .. | .andi .. => some (a &&& b)
  | .or .. | .ori .. => some (a ||| b)
  | .xor .. | .xori .. => some (a ^^^ b)
  | .andn .. | .andni .. => some (a &&& ~~~b)
  | .shl .. | .shli .. => some (BitVec.ofNat 64 (a.toNat * 2 ^ sh))
  | .shr .. | .shri .. => some (BitVec.ofNat 64 (a.toNat / 2 ^ sh))
  | .sar .. | .sari .. => some (BitVec.ofInt 64 (a.toInt / 2 ^ sh))
  | .rol .. | .roli .. => some (BitVec.ofNat 64 (a.toNat * 2 ^ sh + a.toNat / 2 ^ (64 - sh)))
  | .mul .. | .muli .. => some (BitVec.ofNat 64 (a.toNat * b.toNat))
  | .mulhu .. | .mulhui .. => some (BitVec.ofNat 64 (a.toNat * b.toNat / 2 ^ 64))
  | .mulhs .. | .mulhsi .. => some (BitVec.ofInt 64 (a.toInt * b.toInt / 2 ^ 64))
  | .min .. | .mini .. => some (BitVec.ofInt 64 (min a.toInt b.toInt))
  | .max .. | .maxi .. => some (BitVec.ofInt 64 (max a.toInt b.toInt))
  | .minu .. | .minui .. => some (BitVec.ofNat 64 (min a.toNat b.toNat))
  | .maxu .. | .maxui .. => some (BitVec.ofNat 64 (max a.toNat b.toNat))
  | _ => none

/-- Destination and operands of those instructions. -/
def aluArgs (y : Eng) : Instr → Option (Gr × Word64 × Word64)
  | .add _ rd ra rb | .sub _ rd ra rb | .and _ rd ra rb | .or _ rd ra rb | .xor _ rd ra rb | .andn _ rd ra rb
  | .shl _ rd ra rb | .shr _ rd ra rb | .sar _ rd ra rb | .rol _ rd ra rb | .mul _ rd ra rb | .mulhu _ rd ra rb
  | .mulhs _ rd ra rb | .min _ rd ra rb | .max _ rd ra rb | .minu _ rd ra rb | .maxu _ rd ra rb =>
      some (rd, y.reg ra, y.reg rb)
  | .addi _ rd ra ty imm | .subi _ rd ra ty imm | .andi _ rd ra ty imm | .ori _ rd ra ty imm | .xori _ rd ra ty imm
  | .andni _ rd ra ty imm | .shli _ rd ra ty imm | .shri _ rd ra ty imm | .sari _ rd ra ty imm | .roli _ rd ra ty imm
  | .muli _ rd ra ty imm | .mulhui _ rd ra ty imm | .mulhsi _ rd ra ty imm | .mini _ rd ra ty imm | .maxi _ rd ra ty imm
  | .minui _ rd ra ty imm | .maxui _ rd ra ty imm => some (rd, y.reg ra, immOf ty imm)
  | _ => none

/-- The compare conditions of R97. -/
def cmpOf (mode : BitVec 3) (a b : Word64) : Bool :=
  [decide (a.toNat = b.toNat), decide (a.toNat ≠ b.toNat), decide (a.toInt < b.toInt), decide (b.toInt ≤ a.toInt),
   decide (a.toNat < b.toNat), decide (b.toNat ≤ a.toNat), decide (a &&& b ≠ 0), decide (a &&& b = 0)].getD mode.toNat false

/-- The predicate functions of R97. -/
def plogOf (mode : BitVec 3) (a b : Bool) : Bool := [a && b, a || b, a ^^ b, a && !b, a].getD mode.toNat false

/-- The rest of the INT group, and LDC and RDC of the FLOW group, as the engine's new record: single-operand results,
bit fields, predicates, selection, the high half of an immediate, and the loop counters (R91, R95–R98). -/
def intOther (y : Eng) : Instr → Option Eng
  | .clz _ rd ra => some ((moved y).setReg rd (if y.reg ra = 0 then 64 else BitVec.ofNat 64 (63 - Nat.log2 (y.reg ra).toNat)))
  | .popc _ rd ra => some ((moved y).setReg rd (BitVec.ofNat 64 ((List.range 64).filter (y.reg ra).getLsbD).length))
  | .bfx _ rd ra lsb wm1 => some ((moved y).setReg rd
      (BitVec.ofNat 64 ((y.reg ra).toNat / 2 ^ lsb.toNat % 2 ^ (wm1.toNat + 1))))
  | .bfi _ rd ra lsb wm1 =>
      let m : Word64 := BitVec.ofNat 64 ((2 ^ (wm1.toNat + 1) - 1) * 2 ^ lsb.toNat)
      some ((moved y).setReg rd ((y.reg rd &&& ~~~m) ||| (BitVec.ofNat 64 ((y.reg ra).toNat * 2 ^ lsb.toNat) &&& m)))
  | .cmp _ pd ra rb mode => some ((moved y).setPred pd (cmpOf mode (y.reg ra) (y.reg rb)))
  | .cmpi _ pd ra mode ty imm => some ((moved y).setPred pd (cmpOf mode (y.reg ra) (immOf ty imm)))
  | .plog _ pd pa pb mode => some ((moved y).setPred pd (plogOf mode (y.pred pa) (y.pred pb)))
  | .sel _ rd ra rb p => some ((moved y).setReg rd (if y.pred p then y.reg ra else y.reg rb))
  | .lih _ rd ra imm => some ((moved y).setReg rd (BitVec.ofNat 64 (imm.toNat * 2 ^ 32 + (y.reg ra).toNat % 2 ^ 32)))
  | .ldc _ c ra ty imm => some ((moved y).setCtr c (BitVec.ofNat 32 ((y.reg ra).toNat + (immOf ty imm).toNat)))
  | .rdc _ rd c => some ((moved y).setReg rd (BitVec.ofNat 64 (y.ctr c).toNat))
  | _ => none

/-- A result with its exact value clamped to a signed width, and whether the clamp acted (R99). -/
def clampW (w : Nat) (v : Int) : Int × Bool :=
  let c := max (-2 ^ (w - 1)) (min (2 ^ (w - 1) - 1) v)
  (c, decide (c ≠ v))

/-- Rounded half up at bit k (R99). -/
def halfUp (v : Int) (k : Nat) : Int := (2 * v + 2 ^ k) / 2 ^ (k + 1)

/-- Real and imaginary part of a complex value: bits 63..32 and 31..0. -/
def reOf (a : Word64) : Int := (a.extractLsb' 32 32).toInt
def imOf (a : Word64) : Int := (a.extractLsb' 0 32).toInt

/-- A complex result: each half clamped on its own. -/
def pairW (re im : Int) : Word64 × Bool :=
  let (r, a) := clampW 32 re
  let (i, b) := clampW 32 im
  ((BitVec.ofInt 32 r ++ BitVec.ofInt 32 i), a || b)

def word1 (r : Int × Bool) : Word64 × Bool := (BitVec.ofInt 64 r.1, r.2)

/-- The FIX group but for PHASE and SQRTU: destination, result and saturation (R99, R100). CMAC's sum is clamped once, after
its halves are rounded (log 17). -/
def fixOf (y : Eng) : Instr → Option (Gr × Word64 × Bool)
  | .qadd _ rd ra rb => some (rd, word1 (clampW 64 ((y.reg ra).toInt + (y.reg rb).toInt)))
  | .qsub _ rd ra rb => some (rd, word1 (clampW 64 ((y.reg ra).toInt - (y.reg rb).toInt)))
  | .qmul _ rd ra rb => some (rd, word1 (clampW 64 (halfUp ((y.reg ra).toInt * (y.reg rb).toInt) 63)))
  | .qmulw _ rd ra rb => some (rd, word1 (clampW 64 (halfUp ((y.reg ra).toInt * (y.reg rb).toInt) 32)))
  | .qmac _ rd ra rb => some (rd, word1 (clampW 64 ((y.reg rd).toInt + halfUp ((y.reg ra).toInt * (y.reg rb).toInt) 63)))
  | .qaddi _ rd ra ty imm => some (rd, word1 (clampW 64 ((y.reg ra).toInt + (immOf ty imm).toInt)))
  | .qmuli _ rd ra ty imm => some (rd, word1 (clampW 64 (halfUp ((y.reg ra).toInt * (immOf ty imm).toInt) 63)))
  | .qmulwi _ rd ra ty imm => some (rd, word1 (clampW 64 (halfUp ((y.reg ra).toInt * (immOf ty imm).toInt) 32)))
  | .qmaci _ rd ra ty imm =>
      some (rd, word1 (clampW 64 ((y.reg rd).toInt + halfUp ((y.reg ra).toInt * (immOf ty imm).toInt) 63)))
  | .cmul _ rd ra rb =>
      let a := y.reg ra; let b := y.reg rb
      some (rd, pairW (halfUp (reOf a * reOf b - imOf a * imOf b) 31) (halfUp (reOf a * imOf b + imOf a * reOf b) 31))
  | .cmac _ rd ra rb =>
      let a := y.reg ra; let b := y.reg rb; let d := y.reg rd
      some (rd, pairW (reOf d + halfUp (reOf a * reOf b - imOf a * imOf b) 31)
        (imOf d + halfUp (reOf a * imOf b + imOf a * reOf b) 31))
  | .cmag2 _ rd ra => some (rd, BitVec.ofInt 64 (reOf (y.reg ra) ^ 2 + imOf (y.reg ra) ^ 2), false)
  | .qabs _ rd ra => some (rd, word1 (clampW 64 |(y.reg ra).toInt|))
  | .qneg _ rd ra => some (rd, word1 (clampW 64 (-(y.reg ra).toInt)))
  | .shrr _ rd ra rb => some (rd, BitVec.ofInt 64 (halfUp (y.reg ra).toInt ((y.reg rb).toNat % 64)), false)
  | .satw _ rd ra wm1 => some (rd, word1 (clampW (wm1.toNat + 1) (y.reg ra).toInt))
  | _ => none

/-- The FLAGS a result leaves: SAT sets where it was clamped (R57, R99). -/
def satFlag (y : Eng) (sat : Bool) : Eng := { y with flags := if sat then y.flags ||| 2 else y.flags }

/-! The APG (R114, R115, R149) -/

/-- One step of a counter in a range, up or down, and whether it wrapped. -/
def wrapUp (lo hi v : Nat) : Nat × Bool := if v = hi then (lo, true) else (v + 1, false)
def wrapDown (lo hi v : Nat) : Nat × Bool := if v = lo then (hi, true) else (v - 1, false)

/-- The successor of an address in a mode's order, and whether the order wrapped (R114). -/
def apgNext (x0 x1 y0 y1 mode : Nat) (x y : Nat) : Nat × Nat × Bool :=
  let sx := if mode = 1 ∨ mode = 3 then wrapDown x0 x1 x else wrapUp x0 x1 x
  let sy := if mode = 1 ∨ mode = 3 then wrapDown y0 y1 y else wrapUp y0 y1 y
  if mode = 4 then (sx.1, sy.1, sx.2 && sy.2)
  else if mode = 0 ∨ mode = 1 then (sx.1, if sx.2 then sy.1 else y, sx.2 && sy.2)
  else (if sy.2 then sx.1 else x, sy.1, sx.2 && sy.2)

/-- The step of R114: an address outside the limits begins at the start of the order. -/
def apgStep (x0 x1 y0 y1 mode : Nat) (x y : Nat) : Nat × Nat × Bool :=
  if x0 ≤ x ∧ x ≤ x1 ∧ y0 ≤ y ∧ y ≤ y1 then apgNext x0 x1 y0 y1 mode x y
  else if mode = 1 ∨ mode = 3 then apgNext x0 x1 y0 y1 mode x1 y1 else apgNext x0 x1 y0 y1 mode x0 y0

/-- A limit of configuration k: 0 XMIN, 4 XMAX, 8 YMIN, 12 YMAX. -/
def apgLim (u : State) (n : Nat) (k : Fin 4) (o : Nat) : Nat := (u.rd (peA n (0x1120 + 16 * k.val + o))).toNat % 2 ^ 24

/-- No step is refused: the limits are in order (R149). -/
def LimitsOk (u : State) (n : Nat) (k : Fin 4) : Prop :=
  apgLim u n k 0 ≤ apgLim u n k 4 ∧ apgLim u n k 8 ≤ apgLim u n k 12

/-- An address pair and a predicate written. -/
def pairSet (y : Eng) (k : Fin 4) (pd : Fin 8) (r : Nat × Nat × Bool) : Eng :=
  ((y.setAx k (BitVec.ofNat 24 r.1)).setAy k (BitVec.ofNat 24 r.2.1)).setPred pd r.2.2

/-- The APG group but for the steps: the engine's new record. -/
def apgOf (u : State) (y : Eng) : Instr → Option Eng
  | .axi _ k (.reg r) ty imm => some ((moved y).setAx k ((y.reg r + immOf ty imm).truncate 24))
  | .axi _ k (.own j) ty imm => some ((moved y).setAx k (y.axr j + (immOf ty imm).truncate 24))
  | .ayi _ k (.reg r) ty imm => some ((moved y).setAy k ((y.reg r + immOf ty imm).truncate 24))
  | .ayi _ k (.own j) ty imm => some ((moved y).setAy k (y.ayr j + (immOf ty imm).truncate 24))
  | .adi _ k (.reg r) ty imm => some ((moved y).setAd k (y.reg r + immOf ty imm))
  | .adi _ k (.own j) ty imm => some ((moved y).setAd k (y.adr j + immOf ty imm))
  | .adgen x k p code bg =>
      let v := u.rd64 (peA x.eng.val (0x1160 + 8 * bg.val))
      let a := y.axr p; let b := y.ayr p
      let m := [false, a.getLsbD 0 ^^ b.getLsbD 0, b.getLsbD 0, a.getLsbD 0, a.getLsbD 1 ^^ b.getLsbD 1].getD code.toNat false
      some ((moved y).setAd k (if m then ~~~v else v))
  | .ainv _ k ka => some ((moved y).setAd k (~~~(y.adr ka)))
  | .ard _ rd k mode => some ((moved y).setReg rd
      (if mode.toNat = 0 then BitVec.ofNat 64 (y.axr k).toNat else if mode.toNat = 1 then BitVec.ofNat 64 (y.ayr k).toNat
       else y.adr k))
  | _ => none

/-! Branches (R94, R95) -/

/-- Whether BRC branches. -/
def brcOf (md : BitVec 8) (a : Word64) : Bool :=
  if md.toNat < 64 then
    [decide (a = 0), decide (a ≠ 0), decide (a.toInt < 0), decide (0 ≤ a.toInt), decide (0 < a.toInt), decide (a.toInt ≤ 0)].getD
      md.toNat false
  else if md.toNat < 128 then a.getLsbD (md.toNat - 64) else !a.getLsbD (md.toNat - 128)

/-- The engine after a branch taken to an instruction. -/
def goesTo (y : Eng) (t : Int) : Eng := { moved y with pc := t.toNat }

/-- Where a branch of the FLOW group leads and what else it changes in the engine: the target, where it is taken, and the
record it leaves but for the program counter. -/
def flowOf (y : Eng) : Instr → Option (Option Int × Eng)
  | .br _ off => some (some (y.pc + off.toInt), y)
  | .brc _ ra md off => some (if brcOf md (y.reg ra) then some (y.pc + off.toInt) else none, y)
  | .loop _ c off =>
      some (if 1 < (y.ctr c).toNat then some (y.pc + off.toInt) else none,
        if y.ctr c = 0 then y else y.setCtr c (BitVec.ofNat 32 ((y.ctr c).toNat - 1)))
  | .call _ off => some (some (y.pc + off.toInt), { y with rs := BitVec.ofNat 14 (y.pc + 1) :: y.rs })
  | .callr _ ra => some (some (y.reg ra).toNat, { y with rs := BitVec.ofNat 14 (y.pc + 1) :: y.rs })
  | .brr _ ra => some (some (y.reg ra).toNat, y)
  | .ret _ => some ((y.rs.head?).map (fun t => (t.toNat : Int)), { y with rs := y.rs.tail })
  | _ => none

/-- The return stack can take a call's address, and gives RET one (R55). -/
def StackOk (y : Eng) : Instr → Prop
  | .call _ _ | .callr _ _ => y.rs.length < 16
  | .ret _ => y.rs ≠ []
  | _ => True

/-- A branch changes no PE state but the loop buffer and what was fetched ahead (R138, R139). -/
def FetchPathOnly (u t : State) (e : Nat) : Prop :=
  { t with engs := u.engs, lanes := u.lanes, pes := u.pes } = u ∧ (∀ n, n ≠ e → t.pe n = u.pe n) ∧
  { t.pe e with lbuf := none, vcache := [] } = { u.pe e with lbuf := none, vcache := [] }

end Sys2Proof.Machine

/-- R91, R95–R98: the INT instructions but MVS, with LDC and RDC: a two-operand one, with a register or an immediate, writes
its result to rd; the others leave the record that `intOther` gives. -/
def Obligations.IntResults : Prop :=
  (∀ s i x f rd a b v, formA s i = some (x, f) → Issues s x f →
    let u := issueAt s x.eng.val
    let y := u.eng x.eng.val
    aluArgs y i = some (rd, a, b) → aluOf a b i = some v →
    Does i s (Becomes u x.eng.val ((moved y).setReg rd v))) ∧
  (∀ s i x f z, formA s i = some (x, f) → Issues s x f →
    let u := issueAt s x.eng.val
    intOther (u.eng x.eng.val) i = some z → Does i s (Becomes u x.eng.val z))

/-- R57, R73, R99, R100: the FIX instructions write their result, and SAT where it was clamped (CMAC: log 17). SQRTU and
PHASE take a tag for 12 ticks; SQRTU gives ⌊√ra⌋, PHASE a value below 2^32 that is 0 for ra = 0 (how near it lies to the angle is
left to the model: log 10). -/
def Obligations.FixResults : Prop :=
  (∀ s i x f rd v sat, formA s i = some (x, f) → Issues s x f →
    let u := issueAt s x.eng.val
    let y := u.eng x.eng.val
    fixOf y i = some (rd, v, sat) → Does i s (Becomes u x.eng.val (satFlag ((moved y).setReg rd v) sat))) ∧
  (∀ s x rd ra, Issues s x (frm 2 [ra] [rd] (tag := true)) →
    let u := issueAt s x.eng.val
    Does (.sqrtu x rd ra) s fun t => ∃ z,
      Taken (u.eng x.eng.val) ⟨rd, some (BitVec.ofNat 64 (Nat.sqrt ((u.eng x.eng.val).reg ra).toNat)), .exact (u.now + 12)⟩ z ∧
      Becomes u x.eng.val z t) ∧
  (∀ s x rd ra, Issues s x (frm 2 [ra] [rd] (tag := true)) →
    let u := issueAt s x.eng.val
    Does (.phase x rd ra) s fun t => ∃ z v,
      Taken (u.eng x.eng.val) ⟨rd, some v, .exact (u.now + 12)⟩ z ∧ v.toNat < 2 ^ 32 ∧
      ((u.eng x.eng.val).reg ra = 0 → v = 0) ∧ Becomes u x.eng.val z t)

/-- R55, R65, R94, R95: a branch that is taken goes to its target, one that is not goes on; CALL and CALLR push the return
address, RET pops it, LOOP counts its counter down to 0. A target outside the program memory, a CALL at a full return stack and a
RET at an empty one are ILLEGAL at the instruction. -/
def Obligations.BranchesGoToTheirTarget : Prop :=
  ∀ s i x f target z, formA s i = some (x, f) → Issues s x f →
    let u := issueAt s x.eng.val
    let y := u.eng x.eng.val
    flowOf y i = some (target, z) →
    (StackOk y i → (∀ a, target = some a → 0 ≤ a ∧ a ≤ 16383) → Does i s fun t => FetchPathOnly u t x.eng.val ∧
      EngIs u t x.eng.val (match target with | some a => goesTo { z with pc := y.pc } a | none => moved z)) ∧
    ((¬ StackOk y i ∨ ∃ a, target = some a ∧ (a < 0 ∨ 16383 < a)) → Does i s fun t => Stops u t x.eng.val 4 y.pc false ∧
      (t.eng x.eng.val).rs = y.rs ∧ Raises u t 3 2 (if x.eng.val < 64 then 1 else 2) (x.eng.val % 64))

/-- R114, R115, R149: AXI, AYI, ADI, ADGEN, AINV and ARD write one register. ASTEP and AGAL step the address pair and give the
wrap; limits out of order are ILLEGAL. AGAL skips the base address. -/
def Obligations.ApgResults : Prop :=
  (∀ s i x f z, formB s i = some (x, f) → Issues s x f →
    let u := issueAt s x.eng.val
    apgOf u (u.eng x.eng.val) i = some z → Does i s (Becomes u x.eng.val z)) ∧
  (∀ s x k pd,
    let e := x.eng.val
    let u := issueAt s e
    let y := u.eng e
    let step := fun m a b => apgStep (apgLim u e k 0) (apgLim u e k 4) (apgLim u e k 8) (apgLim u e k 12) m a b
    let next := fun m a b => apgNext (apgLim u e k 0) (apgLim u e k 4) (apgLim u e k 8) (apgLim u e k 12) m a b
    (∀ mode : BitVec 3, Issues s x (frm 6 [] [] (ok := decide (mode.toNat ≤ 4))) →
      (LimitsOk u e k → Does (.astep x k pd mode) s
        (Becomes u e (pairSet (moved y) k pd (step mode.toNat (y.axr k).toNat (y.ayr k).toNat)))) ∧
      (¬ LimitsOk u e k → Does (.astep x k pd mode) s fun t => Stops u t e 4 y.pc false ∧ Raises u t 3 2 1 e)) ∧
    (∀ base : Fin 4, Issues s x (frm 6 [] []) →
      let r := step 0 (y.axr k).toNat (y.ayr k).toNat
      let skip := r.1 = (y.axr base).toNat ∧ r.2.1 = (y.ayr base).toNat
      (LimitsOk u e k → (¬ skip → Does (.agal x k base pd) s (Becomes u e (pairSet (moved y) k pd r))) ∧
        (skip → Does (.agal x k base pd) s (Becomes u e (pairSet (moved y) k pd
          ((next 0 r.1 r.2.1).1, (next 0 r.1 r.2.1).2.1, r.2.2 || (next 0 r.1 r.2.1).2.2))))) ∧
      (¬ LimitsOk u e k → Does (.agal x k base pd) s fun t => Stops u t e 4 y.pc false ∧ Raises u t 3 2 1 e)))

namespace Sys2Proof.Machine

/-! Special registers, memory, time and verdicts -/

/-- R56: what MVS reads; `none` where the number is reserved or the engine has no such register. -/
def specialOf (u : State) (e : Nat) (num : BitVec 8) : Option Word64 :=
  let y := u.eng e
  [some (BitVec.ofNat 64 u.wtc.toNat), some (BitVec.ofNat 64 (u.epoch.toNat * 2 ^ 48 + u.wtc.toNat)),
   some (BitVec.ofNat 64 u.epoch.toNat), some (if y.timed then BitVec.ofNat 64 y.slot.toNat else 0), some (BitVec.ofNat 64 e),
   some (BitVec.ofNat 64 ((u.rd (decA 0x008)).toNat % 64)), some (BitVec.ofNat 64 y.flags.toNat),
   some (BitVec.ofNat 64 (y.preds ||| 1).toNat), some (BitVec.ofNat 64 y.tagMask.toNat), some (BitVec.ofNat 64 y.rs.length),
   if e < 64 then some (BitVec.ofNat 64 y.ts.toNat) else none,
   if e < 64 then some (BitVec.ofNat 64 (u.pe e).sites.toNat) else none].getD num.toNat none

/-- The byte address that a sum of a register and an immediate names in HBM, and the DMEM word (R101). -/
def hbmAt (v : Word64) : Nat := v.toNat / 8 % 2 ^ 33 * 8
def dmemAt (v : Word64) : Nat := v.toNat % 2 ^ 14

/-- A fault is raised, the engine holds z, and nothing else has changed. -/
def BecomesWith (u : State) (e cls lvl : Nat) (z : Eng) (t : State) : Prop :=
  EngIs u t e z ∧ Raises u t cls lvl (if e < 64 then 1 else 2) (e % 64) ∧
  { t with engs := u.engs, lanes := u.lanes, faults := u.faults } = u

end Sys2Proof.Machine

/-- R56, R57, R65: MVS reads a special register into rd, or writes FLAGS, the predicates or SITES; any other number is ILLEGAL
at the instruction. -/
def Obligations.MvsMovesSpecialRegisters : Prop :=
  ∀ s x r num,
    let e := x.eng.val
    let u := issueAt s e
    let y := u.eng e
    (Issues s x (frm 1 [] [r]) →
      (∀ v, specialOf u e num = some v → Does (.mvs x false r num) s (Becomes u e ((moved y).setReg r v))) ∧
      (specialOf u e num = none → Does (.mvs x false r num) s fun t =>
        Stops u t e 4 y.pc false ∧ Raises u t 3 2 (if e < 64 then 1 else 2) (e % 64))) ∧
    (Issues s x (frm 1 [r] []) →
      (num = 6 → Does (.mvs x true r num) s (Becomes u e { moved y with flags := (y.reg r).truncate 3 })) ∧
      (num = 7 → Does (.mvs x true r num) s (Becomes u e { moved y with preds := (y.reg r).truncate 8 ||| 1 })) ∧
      (num = 11 → e < 64 → Does (.mvs x true r num) s fun t => EngIs u t e (moved y) ∧
        t.pe e = { u.pe e with sites := (y.reg r).truncate 4 } ∧ (∀ n, n ≠ e → t.pe n = u.pe n) ∧
        { t with engs := u.engs, lanes := u.lanes, pes := u.pes } = u) ∧
      (num ≠ 6 → num ≠ 7 → (num ≠ 11 ∨ 64 ≤ e) → Does (.mvs x true r num) s fun t =>
        Stops u t e 4 y.pc false ∧ Raises u t 3 2 (if e < 64 then 1 else 2) (e % 64)))

/-- R69, R101: LD takes a tag for 6 ticks and gives the DMEM word that stands at its issue; a corrected word raises ECC_C, an
uncorrectable one is a machine check. ST writes its word at issue, and no other. -/
def Obligations.LocalLoadAndStore : Prop :=
  (∀ s x rd ra ty imm, Issues s x (frm 3 [ra] [rd] (tag := true)) →
    let e := x.eng.val
    let u := issueAt s e
    let w := dmemAt ((u.eng e).reg ra + immOf ty imm)
    let use : TagUse := ⟨rd, some (u.rd64 (memA e (0x20000 + 8 * w))), .exact (u.now + 6)⟩
    Does (.ld x rd ra ty imm .ok) s (fun t => ∃ z, Taken (u.eng e) use z ∧ Becomes u e z t) ∧
    Does (.ld x rd ra ty imm .ce) s (fun t => ∃ z, Taken (u.eng e) use z ∧ BecomesWith u e 0 1 z t) ∧
    Does (.ld x rd ra ty imm .ue) s (fun t => Stops u t e 6 (u.eng e).pc false ∧
      Raises u t 2 2 (if e < 64 then 1 else 2) (e % 64))) ∧
  (∀ s x ra rb imm, Issues s x (frm 3 [ra, rb] []) →
    let e := x.eng.val
    let u := issueAt s e
    let a := memA e (0x20000 + 8 * dmemAt ((u.eng e).reg ra + immOf .s32 imm))
    Does (.st x ra rb imm) s fun t => EngIs u t e (moved (u.eng e)) ∧ t.rd64 a = (u.eng e).reg rb ∧
      (∀ b, b ≠ a → b ≠ a + 4 → t.rd b = u.rd b) ∧ { t with engs := u.engs, lanes := u.lanes, bar := u.bar } = u)

/-- R70, R102, R328: LDH takes a tag for the word of its cache line, else of HBM, and the line is then held; an uncorrectable
word, or a stack that is off, gives 0 and ECC_U. STH writes its word through, and no other byte of HBM; its tag stands for the
acknowledgement of the stack, HBM_STORE_ACK, which gives the destination 0. To a stack that is off nothing is written. The
model's choices it rests on: logs 27 and 28. -/
def Obligations.HbmLoadAndStore : Prop :=
  (∀ s x rd ra ty imm, Issues s x (frm 3 [ra] [rd] (tag := true) (timedOk := false)) →
    let e := x.eng.val
    let u := issueAt s e
    let y := u.eng e
    let a := hbmAt (y.reg ra + immOf ty imm)
    let use := fun v : Word64 => (⟨rd, some v, .average⟩ : TagUse)
    let gives := fun (v : Word64) (t : State) => ∃ z c l, Taken y (use v) z ∧ Becomes u e { z with dcache := c } t ∧
      cacheLine c a = some l ∧ l.words.getD (a / 8 % 8) 0 = v
    (u.stackOn (a / 2 ^ 34) = true →
      (∀ ecc l, cacheLine y.dcache a = some l → Does (.ldh x rd ra ty imm ecc) s (gives (l.words.getD (a / 8 % 8) 0))) ∧
      (cacheLine y.dcache a = none → Does (.ldh x rd ra ty imm .ok) s (gives (u.hbmW a))) ∧
      (cacheLine y.dcache a = none → Does (.ldh x rd ra ty imm .ue) s fun t => ∃ z, Taken y (use 0) z ∧ EngIs u t e z ∧
        Raises u t 1 2 (if e < 64 then 1 else 2) (e % 64) ∧ t.hbm = u.hbm)) ∧
    (u.stackOn (a / 2 ^ 34) = false → ∀ ecc, Does (.ldh x rd ra ty imm ecc) s fun t => ∃ z, Taken y (use 0) z ∧
      BecomesWith u e 1 2 z t)) ∧
  (∀ s x rd ra rb imm, Issues s x (frm 3 [ra, rb] [rd] (tag := true) (timedOk := false)) →
    let e := x.eng.val
    let u := issueAt s e
    let y := u.eng e
    let a := hbmAt (y.reg ra + immOf .s32 imm)
    (u.stackOn (a / 2 ^ 34) = true → Does (.sth x rd ra rb imm) s fun t => ∃ z c k, Taken y ⟨rd, some 0, .store k⟩ z ∧
      k.val = a / 2 ^ 34 ∧ EngIs u t e { z with dcache := c } ∧ (cacheLine y.dcache a = none → c = y.dcache) ∧
      (∀ l, cacheLine y.dcache a = some l → ∃ m, cacheLine c a = some m ∧ m.words = l.words.set (a / 8 % 8) (y.reg rb)) ∧
      t.hbmW a = y.reg rb ∧ (∀ b, b < a ∨ a + 8 ≤ b → t.hbmB b = u.hbmB b) ∧
      { t with engs := u.engs, lanes := u.lanes, hbm := u.hbm } = u) ∧
    (u.stackOn (a / 2 ^ 34) = false → Does (.sth x rd ra rb imm) s (BecomesWith u e 1 2 ((moved y).setReg rd 0)))) ∧
  (∀ s (e : Fin 96) (k : Fin 16) rd v st, (s.eng e.val).tag? k.val = some ⟨rd, v, .store st⟩ →
    Does (.hbmStoreAck e k) s fun t =>
      t.eng e.val = { (s.eng e.val).setReg rd 0 with tags := (s.eng e.val).tags.filter (fun w => w.1 != k.val) } ∧
      (∀ n, n ≠ e.val → t.eng n = s.eng n) ∧ { t with engs := s.engs } = s)

/-- R44, R77, R386: AT with no gap to insert launches at its target: at once where the target is now, late where it is past
(FLAGS.LATE, counted), else the engine waits for it. AT_LAUNCH ends that wait. R74–R77, R85, R386: TBEGIN with no gap to
insert opens a timed section in its timing set, its first slot at the launch tick, or four ticks on where there was no AT.
TEND closes it at the end of its last slot. A gap that is to be inserted counts, and the instruction issues again when
THROTTLE_GAP_END ends it. -/
def Obligations.TimedCode : Prop :=
  ((∀ s x pair arg f, formB s (.atTarget x pair arg) = some (x, f) → Issues s x f →
     let e := x.eng.val
     let u := issueAt s e
     let y := u.eng e
     let at_ : BitVec 48 := match arg with
       | .absolute t => t
       | .relative t => u.wtc + t
       | .register r => (y.reg r).truncate 48
     let ahead := (at_ - u.wtc).toNat
     let y' := { moved y with gapDone := false }
     (pair = false ∨ y.gapDone = true ∨ u.gapLen e = 0) →
       (ahead = 0 → Does (.atTarget x pair arg) s (Becomes u e { y' with wait := .none, atTick := some u.now })) ∧
       (2 ^ 47 ≤ ahead → Does (.atTarget x pair arg) s fun t =>
         EngIs u t e { y' with wait := .none, atTick := some u.now, flags := y.flags ||| 1 } ∧
         CountsUp u t (timeA 0x044) ∧
         { t with engs := u.engs, lanes := u.lanes, bar := u.bar } = u) ∧
       (0 < ahead → ahead < 2 ^ 47 →
         Does (.atTarget x pair arg) s (Becomes u e { y' with wait := .atTarget at_ pair, atTick := none }))) ∧
   (∀ s (e : Fin 96) at_ pair, (s.eng e.val).st = .running → (s.eng e.val).wait = .atTarget at_ pair →
     let w := s.toMoment ((at_ - s.wtc).toNat)
     w.wtc = at_ → w.eng e.val = s.eng e.val →
     Does (.atLaunch e) s fun t => t.eng e.val = { s.eng e.val with wait := .none, atTick := some w.now } ∧
       (∀ n, n ≠ e.val → t.eng n = w.eng n) ∧ { t with engs := w.engs } = w)) ∧
  ((∀ s x ts f, formB s (.tbegin x ts) = some (x, f) → Issues s x f →
     let e := x.eng.val
     let u := issueAt s e
     let y := u.eng e
     ((y.atTick ≠ none ∨ y.gapDone = true ∨ u.gapLen e = 0) → Does (.tbegin x ts) s fun t =>
       (t.eng e).timed = true ∧ (t.eng e).slot = 0 ∧ (t.eng e).secLen = 0 ∧ (t.eng e).ts = ts ∧ (t.eng e).pc = y.pc + 1 ∧
       (t.eng e).slotAt = y.atTick.getD (u.now + 4) ∧ (t.eng e).atTick = none ∧ (∀ r, (t.eng e).reg r = y.reg r) ∧
       (∀ k, k ≠ e → t.eng k = u.eng k) ∧ { t with engs := u.engs, bar := u.bar } = u) ∧
     (y.atTick = none → y.gapDone = false → 0 < u.gapLen e → Does (.tbegin x ts) s fun t =>
       t.eng e = { moved y with wait := .gap (u.now + u.gapLen e), pc := y.pc, throttled := true, atTick := none } ∧
       CountsUp u t (thmA 0x010) ∧
       { t with engs := u.engs, bar := u.bar } = u)) ∧
   (∀ s (e : Fin 96) g, (s.eng e.val).st = .running → (s.eng e.val).wait = .gap g →
     let w := s.advanceTo g
     Does (.throttleGapEnd e) s fun t => t.eng e.val = { w.eng e.val with wait := .none, gapDone := true } ∧
       (∀ k, k ≠ e.val → t.eng k = w.eng k) ∧ { t with engs := w.engs } = w) ∧
   (∀ s x f, formB s (.tend x) = some (x, f) → Issues s x f →
     let e := x.eng.val
     let u := issueAt s e
     let m := u.setEng e (moved (u.eng e))
     let w := m.advanceTo (m.sectionEnd e)
     (w.eng e).st = .running → (w.eng e).suspPend = false →
     ((w.eng e).stopPend = false → Does (.tend x) s fun t =>
       t.eng e = { w.eng e with timed := false, slot := 0, throttled := false } ∧ (∀ k, k ≠ e → t.eng k = w.eng k) ∧
       { t with engs := w.engs } = w) ∧
     ((w.eng e).stopPend = true → Does (.tend x) s fun t => (t.eng e).st = .stopping ∧ (t.eng e).timed = false ∧
       t.rdf (engA e 0x010) 24 4 = (w.eng e).stopReason % 16 ∧ t.rdf (engA e 0x010) 23 1 = 0)))

/-- R103, R104, R274: POSTV and POSTG post their value to the slot of the issue tick, and rd receives the reference of line and
slot; a DETACHED module that is not SOLO discards a global post. R57, R80, R105, R106, R272: a read of a visible verdict gives
its value, and FSAFE in a timed section where it carries LOSS. WAITV waits for one that is not visible yet; in a timed section
RDV and BV take the fail-safe value of the line, with FSAFE and a TIMING fault at level 0. BV branches where the value is the
one it names. -/
def Obligations.PostsAndVerdicts : Prop :=
  ((∀ s x rd src line f, formB s (.postv x rd src line) = some (x, f) → Issues s x f →
     let e := x.eng.val
     let u := issueAt s e
     let y := u.eng e
     let v := match src with | .reg r => (y.reg r).getLsbD 0 | .const b => b
     let slot := u.slotNum u.now
     Does (.postv x rd src line) s fun t =>
       EngIs u t e ((moved y).setReg rd (BitVec.ofNat 64 (line.toNat * 2 ^ 55 + slot.toNat))) ∧
       ⟨slot, false, line.toNat, v⟩ ∈ t.dec.posts ∧ { t.dec with posts := u.dec.posts } = u.dec ∧
       { t with engs := u.engs, lanes := u.lanes, dec := u.dec } = u) ∧
   (∀ s x rd src line f, formB s (.postg x rd src line) = some (x, f) → Issues s x f →
     let e := x.eng.val
     let u := issueAt s e
     let y := u.eng e
     let v := match src with | .reg r => (y.reg r).getLsbD 0 | .const b => b
     let slot := u.slotNum u.now
     let gone := u.role ≠ 0 ∧ u.dec.nstate = .detached
     Does (.postg x rd src line) s fun t =>
       EngIs u t e ((moved y).setReg rd (BitVec.ofNat 64 (2 ^ 63 + line.toNat * 2 ^ 55 + slot.toNat))) ∧
       (¬ gone → ⟨slot, true, line.toNat, v⟩ ∈ t.dec.posts) ∧ (gone → t.dec.posts = u.dec.posts) ∧
       { t.dec with posts := u.dec.posts } = u.dec ∧ { t with engs := u.engs, lanes := u.lanes, dec := u.dec } = u)) ∧
  (∀ s x ra,
     let e := x.eng.val
     let u := issueAt s e
     let y := u.eng e
     let v := y.reg ra
     let glob := v.getLsbD 63
     let line := v.toNat / 2 ^ 55 % 256
     let slot : BitVec 48 := v.truncate 48
     let fs := fun (b : Bool) (z : Eng) => if y.timed ∧ b then { z with flags := z.flags ||| 4 } else z
     v.toNat / 2 ^ 48 % 128 = 0 → (glob = true → line < 64) →
     (∀ rd b loss, u.readSlot glob line slot u.now = .value b loss →
       ((∀ f, formB s (.rdv x rd ra false) = some (x, f) → Issues s x f →
         Does (.rdv x rd ra false) s (Becomes u e (fs loss ((moved y).setReg rd (BitVec.ofNat 64 b.toNat))))) ∧
       (Issues s x (frm 4 [ra] [rd] (timedOk := false)) →
         Does (.waitv x rd ra) s (Becomes u e ((moved y).setReg rd (BitVec.ofNat 64 b.toNat)))) ∧
       (∀ want off f, formB s (.bv x ra want false off) = some (x, f) → Issues s x f → 0 ≤ y.pc + off.toInt →
         y.pc + off.toInt ≤ 16383 → Does (.bv x ra want false off) s fun t =>
           EngIs u t e (fs loss (if b = want then goesTo y (y.pc + off.toInt) else moved y)) ∧ FetchPathOnly u t e))) ∧
     (∀ rd b mark, u.readCurrent glob line u.now = (b, mark) → ∀ f, formB s (.rdv x rd ra true) = some (x, f) → Issues s x f →
       Does (.rdv x rd ra true) s (Becomes u e (fs mark ((moved y).setReg rd (BitVec.ofNat 64 b.toNat))))) ∧
     (∀ rd, u.readSlot glob line slot u.now = .notYet →
       (Issues s x (frm 4 [ra] [rd] (timedOk := false)) →
         Does (.waitv x rd ra) s (Becomes u e { moved y with wait := .verdict v rd })) ∧
       (∀ f, formB s (.rdv x rd ra false) = some (x, f) → Issues s x f → y.timed = true → Does (.rdv x rd ra false) s fun t =>
         EngIs u t e (fs true ((moved y).setReg rd (BitVec.ofNat 64 (u.fsafe glob line).toNat))) ∧
         Raises u t 4 0 (if e < 64 then 1 else 2) (e % 64) ∧
         { t with engs := u.engs, lanes := u.lanes, bar := u.bar, faults := u.faults } = u)))

/-- R102, R109: DMAK hands a descriptor's DMEM word over and takes a tag; FENCE ends the stall for busy tags, and with INV
empties the data cache; HALT stops the engine with its own reason. -/
def Obligations.SystemInstructions : Prop :=
  (∀ s x rd ra d c, Issues s x (frm 12 [ra] [rd] (tag := true) (timedOk := false)) →
    let u := issueAt s x.eng.val
    Does (.dmak x rd ra d c) s fun t => ∃ z,
      Taken (u.eng x.eng.val) ⟨rd, none, .dmak d c (((u.eng x.eng.val).reg ra).truncate 14)⟩ z ∧ Becomes u x.eng.val z t) ∧
  (∀ s x inv f, formB s (.fence x inv) = some (x, f) → Issues s x f →
    let u := issueAt s x.eng.val
    let y := u.eng x.eng.val
    Does (.fence x inv) s (Becomes u x.eng.val { moved y with dcache := if inv then [] else y.dcache })) ∧
  (∀ s x, Issues s x (frm 12 [] [] (timedOk := false)) →
    let u := issueAt s x.eng.val
    Does (.halt x) s fun t => Stops u t x.eng.val 1 (u.eng x.eng.val).pc false ∧ t.faults = u.faults ∧ t.hbm = u.hbm)

/-- R87: SIG SYNC puts the engine into SIG_WAIT with its code in the synchronous place; SIG NOTIFY adds its code to the queue
of four, and in a timed section a code without a place is lost, counted, with HOST at level 0. SIG_CODE gives the synchronous
code first, then the oldest of the queue, and removes it. -/
def Obligations.SignalsAndTheirCodes : Prop :=
  (∀ s x code, Issues s x (frm 12 [] [] (timedOk := false)) →
    let e := x.eng.val
    let u := issueAt s e
    Does (.sig x true code) s fun t => SameEng (t.eng e) { moved (u.eng e) with sigSync := some code, st := .sigWait } ∧
      (∀ k, k ≠ e → t.eng k = u.eng k) ∧ t.hbm = u.hbm ∧ t.faults = u.faults) ∧
  (∀ s x code f, formB s (.sig x false code) = some (x, f) → Issues s x f →
    let e := x.eng.val
    let u := issueAt s e
    let y := u.eng e
    (y.sigQ.length < 4 → Does (.sig x false code) s fun t => EngIs u t e { moved y with sigQ := y.sigQ ++ [code] } ∧
      t.hbm = u.hbm ∧ t.faults = u.faults) ∧
    (4 ≤ y.sigQ.length → Does (.sig x false code) s fun t => EngIs u t e (moved y) ∧
      Raises u t 14 0 (if e < 64 then 1 else 2) (e % 64) ∧
      CountsUp u t (engA e 0x018))) ∧
  (∀ s p (e : Fin 96), Reached s p (engA e.val 0x014) →
    let y := s.eng e.val
    (∀ c, y.sigSync = some c → Does (.sigCodeRead p e) s fun t =>
      t.outbox = s.outbox ++ [.readData p (BitVec.ofNat 32 (2 ^ 31 + 2 ^ 16 + c.toNat))] ∧ t.eng e.val = { y with sigSync := none }) ∧
    (∀ c q, y.sigSync = none → y.sigQ = c :: q → Does (.sigCodeRead p e) s fun t =>
      t.outbox = s.outbox ++ [.readData p (BitVec.ofNat 32 (2 ^ 31 + c.toNat))] ∧ t.eng e.val = { y with sigQ := q }) ∧
    (y.sigSync = none → y.sigQ = [] → Does (.sigCodeRead p e) s fun t => t = { s with outbox := s.outbox ++ [.readData p 0] }))

namespace Sys2Proof.Machine

/-- The BAR0 offset a CSR names (R107). -/
def csrAt (e : Nat) (blk : BitVec 2) (off : BitVec 14) : Nat :=
  if blk = 0 then engA e (4 * off.toNat)
  else if blk = 1 then (if e < 64 then pbA e (4 * off.toNat) else rfA (e - 64) (4 * off.toNat))
  else timeA (4 * off.toNat)

/-- The value of a 16-bit operand. -/
def val16 (y : Eng) : Src16 → BitVec 16
  | .reg r => (y.reg r).truncate 16
  | .imm v => v

/-- A settling time of a PPMU range and of an SMU range, in ticks (R288). -/
def ppmuTicks (range : Nat) : Nat := [320000, 80000, 32000].getD range 16000
def smuTicks (range : Nat) : Nat := [320000, 320000, 80000].getD range 32000

/-- The power an SMU setting reserves, in mW rounded up: 1.8 times the range's full scale times the clamp or the force
(R116, R290). -/
def reserveOf (mode range clampI : Nat) (force : Int) : Nat :=
  if mode = 1 then (10 ^ range * clampI * 18 + 99999) / 100000
  else if mode = 2 then (10 ^ range * force.natAbs * 18 + (1048576000 - 1)) / 1048576000
  else 0

/-- What an accepted command leaves of SMU n: mode, range, force, its reservation and its settling time (R288–R290). -/
def SmuSet (s t : State) (n mode range : Nat) (force : Int) : Prop :=
  t.rdf (pbA n 0xC00) 8 3 = range ∧ t.settleAt (1024 + n) = s.now + smuTicks range ∧
  (mode = 0 → t.rdf (pbA n 0xC00) 16 2 = 0 ∧ t.tst (pbA n 0xC0C) 0 = false ∧ t.rdf (pbA n 0xC0C) 16 16 = 0) ∧
  (mode ≠ 0 → t.rdf (pbA n 0xC00) 16 2 = mode ∧ t.tst (pbA n 0xC0C) 0 = true ∧ (t.smu n).force = force ∧
    t.rdf (pbA n 0xC0C) 16 16 = reserveOf mode range (s.rdf (pbA n 0xC08) 0 7) force % 2 ^ 16) ∧
  t.hbm = s.hbm ∧ t.faults = s.faults ∧ RegsBut s t [pbA n 0xC00, pbA n 0xC0C]

/-- A command that an SMU accepts: no ramp, a force in the limits of its mode, and room in the budget of 16 W (R289, R290). -/
def SmuAccepts (s : State) (n mode range : Nat) (force : Int) : Prop :=
  s.tst (pbA n 0xC0C) 4 = false ∧ (mode = 1 → force.natAbs ≤ 8000000) ∧ (mode = 2 → force.natAbs ≤ 1048576) ∧
  (s.othersReserve n + reserveOf mode range (s.rdf (pbA n 0xC08) 0 7) force ≤ 16000 ∨
    reserveOf mode range (s.rdf (pbA n 0xC08) 0 7) force ≤ s.rdf (pbA n 0xC0C) 16 16)

end Sys2Proof.Machine

/-- R107, R108, R345: a CSR has the effect of an access by its engine's own path, and its tag carries what a read gives, or 0 for
a write; a register of a domain that is off is ILLEGAL. The model's choices it rests on: log 26. -/
def Obligations.CsrAccesses : Prop :=
  ∀ s x rd ra wr blk off f, formB s (.csr x rd ra wr blk off) = some (x, f) → Issues s x f →
    let e := x.eng.val
    let u := issueAt s e
    let m := u.setEng e (moved (u.eng e))
    let a := csrAt e blk off
    (u.dom (domainOf a) = true →
      (wr = false → Does (.csr x rd ra wr blk off) s fun t =>
        let r := m.busRead (.csr x.eng) a
        t = (r.2.takeTag x rd (some (BitVec.ofNat 64 r.1.toNat)) .average).plainSlot e) ∧
      (wr = true → Does (.csr x rd ra wr blk off) s fun t =>
        t = ((m.busWrite (.csr x.eng) a (((u.eng e).reg ra).truncate 32)).takeTag x rd (some 0) .average).plainSlot e)) ∧
    (u.dom (domainOf a) = false → Does (.csr x rd ra wr blk off) s fun t => Stops u t e 4 (u.eng e).pc false ∧
      Raises u t 3 2 (if e < 64 then 1 else 2) (e % 64))

/-- R111, R113: VFAIL branches where a fail flag it names is set, and clears the flags on CLR; a flag set in this very tick
stays. VSTV writes the Starve Vector, and a symbol above 0x9 is ILLEGAL. VMASK writes the lane mask. -/
def Obligations.FailFlagsStarveVectorAndMask : Prop :=
  (∀ s x site any clr off f, formB s (.vfail x site any clr off) = some (x, f) → Issues s x f →
    let e := x.eng.val
    let u := issueAt s e
    let y := u.eng e
    let m : BitVec 4 := if any then (u.pe e).sites else BitVec.ofNat 4 (2 ^ site.val)
    0 ≤ y.pc + off.toInt → y.pc + off.toInt ≤ 16383 → Does (.vfail x site any clr off) s fun t =>
      EngIs u t e (if (u.pe e).ffail &&& m = 0 then moved y else goesTo y (y.pc + off.toInt)) ∧
      (t.pe e).ffail = (if clr then ((u.pe e).ffail &&& ~~~m) ||| (if (u.pe e).ffailAt = u.now then (u.pe e).ffailNew else 0)
        else (u.pe e).ffail) ∧
      { t.pe e with ffail := 0, lbuf := none, vcache := [] } = { u.pe e with ffail := 0, lbuf := none, vcache := [] } ∧
      (∀ n, n ≠ e → t.pe n = u.pe n) ∧ { t with engs := u.engs, lanes := u.lanes, pes := u.pes } = u) ∧
  (∀ s x ra, Issues s x (frm 5 [ra] []) →
    let e := x.eng.val
    let u := issueAt s e
    let v := (u.eng e).reg ra
    ((∀ l < 16, v.toNat / 16 ^ l % 16 ≤ 9) → Does (.vstv x ra) s fun t => EngIs u t e (moved (u.eng e)) ∧
      t.rd64 (peA e 0x1010) = v ∧ RegsBut u t [peA e 0x1010, peA e 0x1014] ∧
      { t with engs := u.engs, lanes := u.lanes, bar := u.bar } = u) ∧
    ((∃ l < 16, 9 < v.toNat / 16 ^ l % 16) → Does (.vstv x ra) s fun t => Stops u t e 4 (u.eng e).pc false ∧
      Raises u t 3 2 1 e ∧ t.rd64 (peA e 0x1010) = u.rd64 (peA e 0x1010))) ∧
  (∀ s x src f, formB s (.vmask x src) = some (x, f) → Issues s x f →
    let e := x.eng.val
    let u := issueAt s e
    Does (.vmask x src) s fun t => EngIs u t e (moved (u.eng e)) ∧
      t.pe e = { u.pe e with vmask := val16 (u.eng e) src } ∧ (∀ n, n ≠ e → t.pe n = u.pe n) ∧
      { t with engs := u.engs, lanes := u.lanes, pes := u.pes } = u)

/-- R74, R110, R112, R424: a VIS or VMATCH whose first vector is there, is fit for the season and carries no bad symbol issues it:
the vector count goes up by one, the vector is in flight, its period is the next of the bank, the enabled sites are tested,
and the issue goes on with its next repetition. The model's choices it rests on: logs 29 and 30. -/
def Obligations.VectorIssueBegins : Prop :=
  ∀ s x ts rep src i q0, (i = .vis x ts rep src .ok ∨ ∃ hit, i = .vmatch x ts rep src .ok hit) →
    (∃ f, formB s i = some (x, f) ∧ Issues s x f) →
    let e := x.eng.val
    let u := issueAt s e
    let y := u.eng e
    let lit := match src with | .literal r => y.reg r | _ => 0
    q0 = (if y.timed then y.slotAt else max y.slotAt u.now) → q0 = u.now →
    y.st = .running → u.springShort e ts.toNat = false →
    (∀ k, src = .stored k → u.entryBad e k = false ∧ u.storedBad e ts.toNat k = false) →
    (∃ v, u.vecOf e src lit 0 = some v ∧ v.bad = false ∧ u.vecBad e ts.toNat v.uis = false) → 0 < u.period e ts.toNat →
    Does i s fun t =>
      (t.pe e).vcyc = (u.pe e).vcyc + 1 ∧ (∃ w ∈ (t.pe e).inflight, w.pc = y.pc ∧ w.ts = ts ∧ w.period = u.period e ts.toNat) ∧
      (∃ q, (t.pe e).visRun = some q ∧ q.next = 1 ∧ q.reps = rep.toNat ∧ q.pc = y.pc ∧ q.ts = ts ∧ q.src = src) ∧
      (t.eng e).pc = y.pc + 1 ∧ (t.eng e).slotAt = u.now + u.period e ts.toNat ∧ (t.eng e).ts = ts ∧
      (y.timed = true → (t.eng e).slot = y.slot + 1) ∧
      (∀ k < 4, (u.pe e).sites.getLsbD k = true → t.tst (peA e (0x1CA0 + 4 * k)) 0 = true) ∧
      (∀ k, k ≠ e → t.eng k = u.eng k) ∧ t.hbm = u.hbm ∧ t.faults = u.faults

/-- R116, R286, R288, R292, R295: PPMU sets mode and range and settles where they change. MPPMU, MSMU and MADC take a tag and
their request waits for the MADC, or get ERR after six ticks while the MADC domain is off or the entry is not enabled. R116,
R288–R291, R299, R404, R452: SMUC and a write of SMU_CFG set mode, range and force where the SMU accepts them; else nothing is
set and an SMU fault is raised at level 0. A write of SMU_CFG with a reserved code is refused with CFG. A write of SMU_CLAMP
within its limits and the budget holds. SMU_RAMP_DONE opens an output that has ramped down. The model's choices it rests on:
logs 22 and 67. -/
def Obligations.MeasureAndSmuCommands : Prop :=
  ((∀ s x (l : Fin 16) (mode range : BitVec 3), Issues s x (frm 7 [] [] (ok := decide (mode.toNat ≤ 4) && decide (range.toNat ≤ 4))) →
     let e := x.eng.val
     let u := issueAt s e
     let a := pbA e (0x840 + 4 * l.val)
     Does (.ppmu x l mode range) s fun t => EngOnly u t e (moved (u.eng e)) ∧
       t.rdf a 4 3 = mode.toNat ∧ t.rdf a 8 3 = range.toNat ∧ (mode = 0 → t.tst a 17 = false) ∧ RegsBut u t [a] ∧
       t.settleAt (16 * e + l.val) = (if u.rdf a 4 3 = mode.toNat ∧ u.rdf a 8 3 = range.toNat then u.settleAt (16 * e + l.val)
         else u.now + ppmuTicks range.toNat) ∧
       { t with engs := u.engs, lanes := u.lanes, bar := u.bar, settle := u.settle } = u) ∧
   (∀ s x rd, Issues s x (frm 7 [] [rd] (tag := true)) →
     let e := x.eng.val
     let u := issueAt s e
     let y := u.eng e
     let waits := fun (r : Nat → MReq) (t : State) => ∃ z k, y.freeTag = some k ∧ Taken y ⟨rd, none, .madc⟩ z ∧
       EngIs u t e z ∧ (t.madc e).waiting = (u.madc e).waiting ++ [⟨r k, 2, u.now⟩] ∧ (∀ n, n ≠ e → t.madc n = u.madc n) ∧
       { t with engs := u.engs, lanes := u.lanes, madcs := u.madcs, units := u.units } = u
     let fails := fun (v : Word64) (t : State) => ∃ z, Taken y ⟨rd, some v, .exact (u.now + 6)⟩ z ∧ Becomes u e z t
     (u.dom 21 = true → (∀ l cur, Does (.mppmu x rd l cur) s (waits fun k => .ppmu l cur k)) ∧
       (∀ cur, Does (.msmu x rd cur) s (waits fun k => .smu cur k)) ∧
       (∀ entry : Fin 32, (u.rd64 (pbA e (0x1100 + 8 * entry.val))).getLsbD 63 = true → Does (.madc x rd entry) s fun t =>
         ∃ z k, y.freeTag = some k ∧ Taken y ⟨rd, none, .madc⟩ z ∧ EngIs u t e z ∧ (t.madc e).delayed = (u.madc e).delayed ++
           [⟨.entry entry (some k), 2, u.now + (u.rd64 (pbA e (0x1100 + 8 * entry.val))).toNat / 2 ^ 45 % 2 ^ 16⟩] ∧
           { t with engs := u.engs, lanes := u.lanes, madcs := u.madcs } = u)) ∧
     (u.dom 21 = false → (∀ l cur, Does (.mppmu x rd l cur) s (fails (BitVec.ofNat 64 (2 ^ 63)))) ∧
       (∀ cur, Does (.msmu x rd cur) s (fails (BitVec.ofNat 64 (2 ^ 63))))) ∧
     (∀ entry : Fin 32, u.dom 21 = false ∨ (u.rd64 (pbA e (0x1100 + 8 * entry.val))).getLsbD 63 = false →
       Does (.madc x rd entry) s (fails (BitVec.ofNat 64 (2 ^ 63 + entry.val * 2 ^ 53)))))) ∧
  ((∀ s x ra (mode : BitVec 2) (range : BitVec 3),
     Issues s x (frm 7 [ra] [] (ok := decide (mode.toNat ≤ 2) && decide (range.toNat ≤ 5))) →
     let e := x.eng.val
     let u := issueAt s e
     let f := (((u.eng e).reg ra).truncate 32 : Word).toInt
     u.dom 20 = true →
     (SmuAccepts u e mode.toNat range.toNat f → Does (.smuc x ra mode range) s fun t => EngIs u t e (moved (u.eng e)) ∧
       SmuSet u t e mode.toNat range.toNat f) ∧
     (¬ SmuAccepts u e mode.toNat range.toNat f → Does (.smuc x ra mode range) s fun t => EngIs u t e (moved (u.eng e)) ∧
       Raises u t 8 0 3 e ∧ RegsBut u t [pbA e 0xC0C] ∧ t.smus = u.smus)) ∧
   (∀ s p (n : Fin 64) (v : Word), Reached s p (pbA n.val 0xC00) →
     let f := (s.rd (pbA n.val 0xC04)).toInt
     let mode := v.toNat / 2 ^ 16 % 4
     let range := v.toNat / 2 ^ 8 % 8
     ((mode = 3 ∨ 5 < range) → Does (.smuCfgWrite p n v) s fun t => t = s.cfgErr p) ∧
     (mode ≠ 3 → range ≤ 5 → SmuAccepts s n.val mode range f → Does (.smuCfgWrite p n v) s fun t =>
       SmuSet s t n.val mode range f ∧ t.tst (pbA n.val 0xC00) 0 = v.getLsbD 0)) ∧
   (∀ s p (n : Fin 64) (v : Word), Reached s p (pbA n.val 0xC08) →
     let on := s.tst (pbA n.val 0xC0C) 0
     let y := s.smu n.val
     let r := if on then reserveOf y.mode.toNat y.range.toNat (v.toNat % 128) y.force else 0
     let ok := v.toNat / 2 ^ 16 ≤ 8000 ∧ 1 ≤ v.toNat % 128 ∧ v.toNat % 128 ≤ 100
     let room := s.othersReserve n.val + r ≤ 16000 ∨ r ≤ s.rdf (pbA n.val 0xC0C) 16 16
     (¬ ok → Does (.smuClampWrite p n v) s fun t => t = s.cfgErr p) ∧
     (ok → ¬ room → Does (.smuClampWrite p n v) s fun t =>
       t = (s.put (pbA n.val 0xC0C) 3 true).raise 8 0 3 n.val 0) ∧
     (ok → room → Does (.smuClampWrite p n v) s fun t => t.rd (pbA n.val 0xC08) = v &&& 0xFFFF007F ∧
       (on = true → t.rdf (pbA n.val 0xC0C) 16 16 = r % 2 ^ 16) ∧ RegsBut s t [pbA n.val 0xC08, pbA n.val 0xC0C] ∧
       { t with bar := s.bar } = s)) ∧
   (∀ s (n : Fin 64), s.tst (pbA n.val 0xC0C) 4 = true →
     let w := s.advanceTo (s.smu n.val).rampEnd
     Does (.smuRampDone n) s fun t => t.tst (pbA n.val 0xC0C) 0 = false ∧ t.tst (pbA n.val 0xC0C) 4 = false ∧
       t.rdf (pbA n.val 0xC0C) 16 16 = 0 ∧ t.rdf (pbA n.val 0xC00) 16 2 = 0 ∧ RegsBut w t [pbA n.val 0xC00, pbA n.val 0xC0C] ∧
       t.hbm = w.hbm ∧ t.engs = w.engs))

/-- R119, R120, R278–R283: LVW writes a DAC code of each lane it names, and LVL_EN with it; LVR selects a range, whose change
begins then; LVQ reads a code with the range and its state. -/
def Obligations.LevelInstructions : Prop :=
  (∀ s x src en lane dac f, formB s (.lvw x src en lane dac) = some (x, f) → Issues s x f →
    let e := x.eng.val
    let u := issueAt s e
    let ls := match lane with | some l => [l.val] | none => List.range 16
    Does (.lvw x src en lane dac) s fun t => EngOnly u t e (moved (u.eng e)) ∧
      (∀ l ∈ ls, t.rd (pbA e (0x400 + 64 * l + 4 * dac.toNat)) = BitVec.ofNat 32 (val16 (u.eng e) src).toNat ∧
        t.rd (pbA e (0x800 + 4 * l)) = (if en then u.rd (pbA e (0x800 + 4 * l)) ||| 1 else u.rd (pbA e (0x800 + 4 * l)))) ∧
      RegsBut u t (ls.map (fun l => pbA e (0x400 + 64 * l + 4 * dac.toNat)) ++ ls.map (fun l => pbA e (0x800 + 4 * l))) ∧
      t.hbm = u.hbm ∧ t.faults = u.faults) ∧
  (∀ s x lane b, Issues s x (frm 8 [] []) →
    let e := x.eng.val
    let u := issueAt s e
    let ls : List Nat := match (lane : Option (Fin 16)) with | some l => [l.val] | none => List.range 16
    let a := fun l => pbA e (0x800 + 4 * l)
    ((∀ l ∈ ls, u.tst (a l) 16 = b ∨ u.tst (a l) 17 = false) → Does (.lvr x lane b) s fun t =>
      EngOnly u t e (moved (u.eng e)) ∧ RegsBut u t (ls.map a) ∧ t.faults = u.faults ∧ t.hbm = u.hbm ∧
      ∀ l ∈ ls, t.tst (a l) 16 = b ∧ t.tst (a l) 17 = (u.tst (a l) 17 || u.tst (a l) 16 != b) ∧
        (u.tst (a l) 16 ≠ b → (t.lane (16 * e + l)).step = 1 ∧ (t.lane (16 * e + l)).t0 = u.now)) ∧
    (∀ l, lane = some l → u.tst (a l.val) 16 ≠ b → u.tst (a l.val) 17 = true →
      Does (.lvr x lane b) s (BecomesWith u e 15 0 (moved (u.eng e))))) ∧
  (∀ s x rd (l : Fin 16) dac f, formB s (.lvq x rd l dac) = some (x, f) → Issues s x f →
    let e := x.eng.val
    let u := issueAt s e
    let a := pbA e (0x800 + 4 * l.val)
    Does (.lvq x rd l dac) s (Becomes u e ((moved (u.eng e)).setReg rd
      (BitVec.ofNat 64 ((u.rd (pbA e (0x400 + 64 * l.val + 4 * dac.toNat))).toNat % 2 ^ 16 + (u.tst a 17).toNat * 2 ^ 16
        + (u.tst a 16).toNat * 2 ^ 17)))))

/-- R92, R121–R123, R221, R223: on its own port WPLAY starts an idle port at the next slot, WJUMP leaves a jump request with a
playing one, WSTOP a stop request, WSTEP a step trigger with a waiting one; WTONE and WMARK set what takes effect from the
next slot. On a muted port WPLAY and WJUMP are CFG faults. The model's choices it rests on: logs 38 and 39. -/
def Obligations.WaveInstructions : Prop :=
  ∀ s x,
    let e := x.eng.val
    let n := e - 64
    let u := issueAt s e
    let y := u.eng e
    let port := u.tx n
    let alone := fun t : State => EngIs u t e (moved y) ∧ (∀ k, k ≠ n → t.tx k = u.tx k)
    (Issues s x (frm 9 [] []) →
      (∀ seg step, port.st = .idle → port.startAt = none → Does (.wplay x seg step) s fun t => alone t ∧
        t.tx n = { port with seg := seg, plays := 0, stepStart := step, startAt := some (u.weNext n) } ∧
        { t with engs := u.engs, txs := u.txs, units := u.units } = u) ∧
      (∀ seg step, port.st = .muted → Does (.wplay x seg step) s (BecomesWith u e 15 0 (moved y))) ∧
      (∀ seg, port.st = .muted ∨ (port.st = .idle ∧ port.startAt = none) →
        Does (.wjump x seg) s (BecomesWith u e 15 0 (moved y))) ∧
      (∀ seg, port.st = .playing → Does (.wjump x seg) s fun t => alone t ∧
        t.tx n = { port with req := some (seg, u.weNext n) } ∧ { t with engs := u.engs, txs := u.txs } = u) ∧
      (port.st = .playing → Does (.wstop x false) s fun t => alone t ∧
        t.tx n = { port with stopReq := some (port.stopReq.getD (u.weNext n)) } ∧ { t with engs := u.engs, txs := u.txs } = u) ∧
      (port.st = .playing → Does (.wstop x true) s fun t => alone t ∧
        t.tx n = { port with stopNow := some (min (u.txGrid n (u.weNext n)) (port.stopNow.getD (u.txGrid n (u.weNext n)))) } ∧
        { t with engs := u.engs, txs := u.txs } = u) ∧
      (port.st = .waiting → port.startAt = none → u.stepMode n = true → Does (.wstep x) s fun t => alone t ∧
        t.tx n = { port with startAt := some (u.txGrid n (u.weNext n)) } ∧ { t with engs := u.engs, txs := u.txs } = u) ∧
      (port.st = .playing → u.stepMode n = false → Does (.wstep x) s (Becomes u e (moved y))) ∧
      (∀ rel sel lev, Does (.wmark x rel sel lev) s fun t => alone t ∧
        ⟨u.weNext n, true, .mark rel sel lev⟩ ∈ (t.tx n).todo ∧ { t.tx n with todo := port.todo } = port ∧
        { t with engs := u.engs, txs := u.txs } = u)) ∧
    (∀ k (par : BitVec 2) imm, Issues s x (frm 9 [] [] (ok := par.toNat % 2 = 0 || imm.toNat / 2 ^ 16 = 0)) →
      (par = 0 → Does (.wtone x k par imm) s fun t => alone t ∧ (k.val, imm) ∈ (t.tx n).ftwLo ∧
        { t.tx n with ftwLo := port.ftwLo } = port ∧ { t with engs := u.engs, txs := u.txs } = u) ∧
      (par = 1 → Does (.wtone x k par imm) s fun t => alone t ∧
        ⟨u.weNext n, true, .ftw k (imm.truncate 16) ((port.ftwLo.find? (fun h => h.1 == k.val)).map (·.2))⟩ ∈ (t.tx n).todo ∧
        { t.tx n with ftwLo := port.ftwLo, todo := port.todo } = port ∧ { t with engs := u.engs, txs := u.txs } = u) ∧
      (par = 2 → Does (.wtone x k par imm) s fun t => alone t ∧ ⟨u.weNext n, true, .poff k imm⟩ ∈ (t.tx n).todo ∧
        { t.tx n with todo := port.todo } = port ∧ { t with engs := u.engs, txs := u.txs } = u) ∧
      (par = 3 → Does (.wtone x k par imm) s fun t => alone t ∧ ⟨u.weNext n, true, .amp k (imm.truncate 16)⟩ ∈ (t.tx n).todo ∧
        { t.tx n with todo := port.todo } = port ∧ { t with engs := u.engs, txs := u.txs } = u))

/-- R124, R233, R236, R241: RINT opens a window with the configuration of its tone and the next tag, unless one of the tone is
open (CFG); RRES takes a tag for the oldest result, or gets 0 after six ticks under RES_SINK HOST. The model's choices it
rests on: log 42. -/
def Obligations.ReadoutInstructions : Prop :=
  (∀ s x k fifo post glob (line : BitVec 8), Issues s x (frm 10 [] [] (ok := !glob || decide (line.toNat < 64))) →
    let e := x.eng.val
    let n := e - 64
    let u := issueAt s e
    let p := u.rx n
    let v := u.rd (rfA n (0x404C + 16 * k.val))
    (p.toneOpen k (u.weHere n) = false → Does (.rint x k fifo post glob line) s fun t => EngIs u t e (moved (u.eng e)) ∧
      (∃ w, (t.rx n).wins = p.wins ++ [w] ∧ w.tone = k ∧ w.start = u.rxNext n ∧ w.len = v.toNat % 2 ^ 19 + 1 ∧
        w.wdiv = v.toNat / 2 ^ 28 % 8 ∧ w.rshift = v.toNat / 2 ^ 24 % 16 ∧ w.fifo = fifo ∧ w.post = post ∧ w.glob = glob ∧
        w.line = line ∧ w.tag = p.tagCnt) ∧ (t.rx n).tagCnt = p.tagCnt + 1 ∧
      { t.rx n with wins := p.wins, tagCnt := p.tagCnt } = p ∧ (∀ m, m ≠ n → t.rx m = u.rx m) ∧
      { t with engs := u.engs, rxs := u.rxs, units := u.units } = u) ∧
    (p.toneOpen k (u.weHere n) = true →
      Does (.rint x k fifo post glob line) s (BecomesWith u e 15 0 (moved (u.eng e))))) ∧
  (∀ s x rd, Issues s x (frm 10 [] [rd] (tag := true)) →
    let e := x.eng.val
    let n := e - 64
    let u := issueAt s e
    (u.tst (rfA n 0x4008) 2 = true → Does (.rres x rd) s fun t => ∃ z,
      Taken (u.eng e) ⟨rd, some 0, .exact (u.now + 6)⟩ z ∧ Becomes u e z t) ∧
    (u.tst (rfA n 0x4008) 2 = false → (u.rx n).rres = [] →
      (∀ r q, popResult (u.rx n).fifo = (some r, q) → Does (.rres x rd) s fun t => ∃ k,
        (u.eng e).freeTag = some k ∧ (t.eng e).tag? k = some ⟨rd, some (BitVec.ofNat 64 (r.toNat / 2 ^ 192)), .rres⟩ ∧
        (t.rx n).fifo = q ∧ (t.rx n).rres = []) ∧
      ((popResult (u.rx n).fifo).1 = none → Does (.rres x rd) s fun t => ∃ k,
        (u.eng e).freeTag = some k ∧ (t.eng e).tag? k = some ⟨rd, none, .rres⟩ ∧ (t.rx n).rres = [k])))

/-- R242, R245, R247: AQSTART starts an idle stream with a ring of its own, at the next sample, with a START beacon; AQSTOP stops
it at the next sample; AQARM arms a unit; AQMARK marks the next sample. What the state of the stream or unit forbids is a CFG
fault. The model's choices it rests on: log 43. -/
def Obligations.AcquisitionInstructions : Prop :=
  ∀ s x, Issues s x (frm 11 [] []) →
    let e := x.eng.val
    let n := e - 64
    let u := issueAt s e
    let a := u.acq n
    let bad := BecomesWith u e 15 0 (moved (u.eng e))
    (∀ demod c, a.stopAt = none →
      (a.run = false → u.rdf (rfA n 0x4288) 0 13 ≠ 0 → a.q.q.length < 256 → Does (.aqstart x demod c) s fun t =>
        EngIs u t e (moved (u.eng e)) ∧ (t.acq n).run = true ∧ (t.acq n).demod = demod ∧ (t.acq n).cfgNum = c ∧
        (t.acq n).cfg = u.rd (rfA n (0x4200 + 16 * c.val)) ∧ (t.acq n).start = u.rxNext n ∧ (t.acq n).inIdx = 0 ∧
        (∃ b ∈ (t.acq n).q.q, b.tick = u.now ∧ ∃ r f p, b.body = .beacon r f p) ∧ (∀ m, m ≠ n → t.rx m = u.rx m) ∧ t.hbm = u.hbm) ∧
      ((a.run = true ∨ u.rdf (rfA n 0x4288) 0 13 = 0) → Does (.aqstart x demod c) s bad)) ∧
    (a.run = true → Does (.aqstop x) s fun t => EngIs u t e (moved (u.eng e)) ∧
      t.acq n = { a with stopAt := some (min (u.rxNext n) (a.stopAt.getD (u.rxNext n))) } ∧ (∀ m, m ≠ n → t.rx m = u.rx m) ∧
      { t with engs := u.engs, rxs := u.rxs } = u) ∧
    (∀ k : Fin 4, (((u.rx n).unit k.val).armed = false → Does (.aqarm x k) s fun t => EngIs u t e (moved (u.eng e)) ∧
        ((t.rx n).unit k.val).armed = true ∧ ((t.rx n).unit k.val).from_ = u.rxNext n ∧
        ((t.rx n).unit k.val).cfg = u.rd (rfA n (0x4300 + 16 * k.val)) ∧ ((t.rx n).unit k.val).lvl = none ∧
        (∀ j, j ≠ k.val → (t.rx n).unit j = (u.rx n).unit j) ∧ { t with engs := u.engs, rxs := u.rxs } = u) ∧
      (((u.rx n).unit k.val).armed = true → Does (.aqarm x k) s bad)) ∧
    (∀ code, a.stopAt = none → (a.run = true → Does (.aqmark x code) s fun t => EngIs u t e (moved (u.eng e)) ∧
        t.acq n = { a with codes := a.codes ++ [(u.rxNext n, code)] } ∧ { t with engs := u.engs, rxs := u.rxs } = u) ∧
      (a.run = false → Does (.aqmark x code) s bad))

namespace Sys2Proof.Machine

/-- The block's memories are in canonical form: HBM and the registers. -/
def WellKept (s : State) : Prop := Memory.wf s.hbm = true ∧ Registers.wf s.bar = true

/-- No vector issue is in progress and no TX setting is to come, so that only the clock itself makes something fall. -/
def Calm (s : State) : Prop := (∀ n, (s.pe n).visRun = none) ∧ ∀ n, (s.tx n).todo = []

/-- The PLL has locked: the WTC counts (R33). -/
def Locked (s : State) : Prop := s.tst (timeA 0x004) 0 = true

/-- A beacon stands in the fail ring of every PE that records and has room (R48). -/
def RingBeacons (s t : State) : Prop :=
  ∀ n, n < 64 → s.rdf (peA n 0x1C18) 0 2 ≠ 0 → (s.pe n).ring.q.length < 64 →
    ∃ b ∈ (t.pe n).ring.q, b.tick = t.now ∧ ∃ r f p, b.body = .beacon r f p

/-- Nothing but registers has changed, and of them only those of a list. -/
def OnlyRegs (s t : State) (l : List Nat) : Prop := RegsBut s t l ∧ { t with bar := s.bar } = s

end Sys2Proof.Machine

/-- A step takes the command at the front of the queue and runs it on the state with the rest of the queue. -/
def Obligations.StepRunsFrontCommand : Prop :=
  ∀ (c : Instr) (q : List Instr) (s : State), s.pending = c :: q → step s = exec c { s with pending := q }

/-- With an empty queue one tick passes (log 1): where nothing falls in it, the elapsed ticks count, and the WTC once the PLL
has locked. -/
def Obligations.EmptyQueueTakesOneTick : Prop :=
  ∀ s : State, s.pending = [] →
    (s.tst (timeA 0x004) 0 = false → step s = .next { s with now := s.now + 1 }) ∧
    (Locked s → 1 < s.toNext → step s = .next { s with now := s.now + 1, wtc := s.wtc + 1 })

/-- R2, R359, R364 and the Reset columns of chapter 21: what reset leaves. The model's choices it rests on: logs 6 and 74. -/
def Obligations.ResetState : Prop :=
  let s := State.reset
  s.pending = [] ∧ s.wtc = 0 ∧ s.epoch = 0 ∧ s.rd 0x000 = 0x0F1C1024 ∧ s.rd 0x004 = 0xB0 ∧ s.season = 4 ∧
  (∀ e < 96, (s.eng e).st = .stopped ∧ s.rd (engA e 0x008) = 0) ∧ (∀ n < 32, (s.tx n).st = .idle) ∧
  (∀ n < 64, s.rd (pbA n 0xC00) = 0 ∧ (s.tdc (2 * n)).st = .idle ∧ (s.tdc (2 * n + 1)).st = .idle) ∧
  (∀ k < 64, (s.chan k).st = .idle) ∧ s.rdf (fltA 0x000) 0 3 = 0 ∧ s.tst 0x00C 1 = false ∧ s.glbLock = false ∧
  s.faults = [] ∧ s.dec.nstate = .detached ∧ s.mcsCopy = none

/-- The state after reset meets the invariant of the memories. -/
def Obligations.ResetIsWellKept : Prop := WellKept State.reset

/-- Every step keeps the canonical form of HBM and of the registers. -/
def Obligations.StepKeepsMemories : Prop := ∀ s t, WellKept s → step s = .next t → WellKept t

/-- A command whose list operand has a length, or whose address an alignment, that no such command has is stopped by name,
whatever the state. The model's choices it rests on: logs 5 and 13. -/
def Obligations.IllFormedCommandsStop : Prop :=
  ∀ (i : Instr) (s : State), wellFormed i = false → ∃ m, exec i s = .fault (.illFormed m)

/-- R30, R31, R33, R305: REF_WARM falling marks the measurements and raises CAL, rising it only shows; a lost reference sets
REF_LOST and HOLDOVER with TIMING at level 3, a returning one clears REF_LOST alone; the PLL's lock starts the WTC's count and
the slots. R35, R36, R48: the WTC wraps to 0 and EPOCH steps, but 0 stays 0 and 0xFFFF goes to 1 with EPOCH_WRAPPED; at the
other multiples of 2^36 only beacons are written. -/
def Obligations.ReferenceAndBeacons : Prop :=
  ((∀ s, s.seas.refWarm = true → s.dom 1 = true → Does .refWarmFall s fun t => t.seas = { s.seas with refWarm := false } ∧
     t.tst (timeA 0x004) 3 = true ∧ RegsBut s t [timeA 0x004] ∧ Raises s t 11 0 0 0 ∧
     (∀ k, ((s.tdc k).st = .armed ∨ (s.tdc k).st = .started) → (s.tdc k).ended = none → (t.tdc k).refCold = true) ∧
     { t with seas := s.seas, bar := s.bar, faults := s.faults, tdcs := s.tdcs } = s) ∧
   (∀ s, Does .refWarmRise s fun t => t = { s with seas := { s.seas with refWarm := true } }) ∧
   (∀ s, s.seas.refPresent = true → s.dom 1 = true → Does .refLost s fun t => t.seas = { s.seas with refPresent := false } ∧
     t.rd (timeA 0x004) = s.rd (timeA 0x004) ||| 0x30 ∧ RegsBut s t [timeA 0x004] ∧ Raises s t 4 3 0 0 ∧
     { t with seas := s.seas, bar := s.bar, faults := s.faults } = s) ∧
   (∀ s, Does .refclkReturn s fun t => t.seas = { s.seas with refPresent := true } ∧
     t.rd (timeA 0x004) = s.rd (timeA 0x004) &&& 0xFFFFFFEF ∧ RegsBut s t [timeA 0x004] ∧
     { t with seas := s.seas, bar := s.bar } = s) ∧
   (∀ s, s.seas.refPresent = true → s.dom 1 = true → ¬ Locked s → Does .pllLock s fun t => Locked t ∧
     t.dec = { s.dec with vsc := 0, slotTick := s.now } ∧ RegsBut s t [timeA 0x004] ∧ { t with dec := s.dec, bar := s.bar } = s)) ∧
  (∀ s, Locked s → Calm s → s.armed = none →
     let k := 2 ^ 36 - s.wtc.toNat % 2 ^ 36
     (s.wtc.toNat + k = 2 ^ 48 → Does .wtcWrap s fun t => t.wtc = 0 ∧ t.now = s.now + k ∧
       t.epoch = (if s.epoch = 0 then 0 else if s.epoch = 0xFFFF then 1 else s.epoch + 1) ∧
       (s.epoch = 0xFFFF → t.tst (timeA 0x004) 7 = true) ∧ RingBeacons s t) ∧
     (s.wtc.toNat + k < 2 ^ 48 → Does .periodicBeacon s fun t => t.wtc = s.wtc + BitVec.ofNat 48 k ∧ t.now = s.now + k ∧
       t.epoch = s.epoch ∧ RingBeacons s t))

/-- R38, R40, R41: RESYNC arms T and L from the registers, is refused while another source is selected, and finds T too near
or past (RESYNC_LATE); CANCEL disarms it; at T the WTC takes L, EPOCH steps, and the registers show both Full Times. -/
def Obligations.Resynchronisation : Prop :=
  (∀ s p, Reached s p (timeA 0x000) →
    let at_ : BitVec 48 := (s.rd64 (timeA 0x020)).truncate 48
    let new : BitVec 48 := (s.rd64 (timeA 0x018)).truncate 48
    let ahead := (at_ - s.wtc).toNat
    (s.rdf (timeA 0x008) 0 2 ≠ 0 → Does (.resync p) s fun t => t = s.cfgErr p) ∧
    (s.rdf (timeA 0x008) 0 2 = 0 → 1024 ≤ ahead → ahead < 2 ^ 47 → Does (.resync p) s fun t =>
      t.armed = some ⟨at_, new, none⟩ ∧ { t with armed := s.armed, dec := s.dec } = s) ∧
    (s.rdf (timeA 0x008) 0 2 = 0 → (ahead < 1024 ∨ 2 ^ 47 ≤ ahead) → Does (.resync p) s fun t =>
      t.armed = s.armed ∧ t.tst (timeA 0x004) 9 = true ∧ t.wtc = s.wtc ∧ t.epoch = s.epoch ∧ t.hbm = s.hbm) ∧
    (∀ r, s.armed = some r → r.epoch = none → Does (.cancel p) s fun t => t = { s with armed := none })) ∧
  (∀ s at_ new, Locked s → Calm s → s.armed = some ⟨at_, new, none⟩ →
    let k := (at_ - s.wtc).toNat
    0 < k → k ≤ 2 ^ 36 - s.wtc.toNat % 2 ^ 36 → Does .resyncApply s fun t =>
      t.wtc = new ∧ t.now = s.now + k ∧ t.armed = none ∧ t.epoch = (if s.epoch = 0xFFFF then 1 else s.epoch + 1) ∧
      t.rd64 (timeA 0x028) = BitVec.ofNat 64 (t.epoch.toNat * 2 ^ 48 + new.toNat) ∧
      (t.rd64 (timeA 0x030)).truncate 48 = at_ ∧ CountsUp s t (timeA 0x040) ∧ RingBeacons s t)

/-- R9–R12, R402, R404: LOCK sets GLB_LOCK, and a locked register then ignores a host's write. A read answers the register and
latches the high half; a low half written is held until the high one writes both; a word of another form, or unaligned,
reaches nothing and sets SIZE_ERR with HOST at level 0. R345, R354, R403, R404: an access that reaches no register changes
none: one to a domain that is off raises HOST, one to an unnamed offset sets UNIMPL, one in WINTER, WAKING or WINTER_ENTRY
outside AON is answered with ones. The model's choices it rests on: logs 15, 56 and 60. -/
def Obligations.RegisterAccesses : Prop :=
  (∀ s p,
     (Reached s p 0x008 → Does (.lock p) s fun t => t = { s with glbLock := true }) ∧
     (∀ (a : BitVec 26) v r k, Reached s p a.toNat → a.toNat % 4 = 0 → s.glbLock = true → s.blob = false →
       rowAt (rowsOf (blkOf a.toNat).1) (blkOf a.toNat).2 = some (r, k) → r.rwl = true → weBlank a.toNat = false →
       exec (.registerWrite p a .dword v) s = .next s) ∧
     (∀ a : BitVec 26, a.toNat = timeA 0x010 → Reached s p a.toNat → Does (.loReadLatch p a) s fun t =>
       t.outbox = s.outbox ++ [.readData p (s.wtc.truncate 32)] ∧
       t.getLatch p = BitVec.ofNat 32 (s.epoch.toNat * 2 ^ 16 + s.wtc.toNat / 2 ^ 32) ∧
       { t with outbox := s.outbox, latch := s.latch } = s) ∧
     (∀ (a : BitVec 26) v, (a.toNat = timeA 0x018 ∨ a.toNat = timeA 0x020) → Reached s p a.toNat →
       Does (.loWriteHold p a v) s fun t => t.heldLo p a.toNat = some v ∧ { t with held := s.held } = s) ∧
     (∀ (a : BitVec 26) v lo, (a.toNat = timeA 0x01C ∨ a.toNat = timeA 0x024) → Reached s p a.toNat →
       s.heldLo p (a.toNat - 4) = some lo → Does (.hiWritePair p a v) s fun t =>
         t.rd (a.toNat - 4) = lo ∧ t.rd a.toNat = v &&& 0xFFFF ∧ t.heldLo p (a.toNat - 4) = none ∧
         RegsBut s t [a.toNat - 4, a.toNat] ∧ { t with bar := s.bar, held := s.held } = s) ∧
     (∀ (a : BitVec 26) q v, (q = .other ∨ (q = .dword ∧ a.toNat % 4 ≠ 0)) → Reached s p a.toNat →
       Does (.registerWrite p a q v) s fun t => t.tst 0x2000 2 = true ∧ RegsBut s t [0x2000, 0x2004] ∧
         Raises s t 14 0 (pathKind p).1 (pathKind p).2 ∧ { t with bar := s.bar, faults := s.faults } = s) ∧
     (∀ (a : BitVec 26) v, a.toNat = timeA 0x008 → Reached s p a.toNat → v.toNat % 4 ≤ 1 → s.glbLock = false →
       Does (.registerWrite p a .dword v) s fun t => t.rdf (timeA 0x008) 0 2 = v.toNat % 4 ∧ OnlyRegs s t [timeA 0x008])) ∧
  ((∀ s p (a : BitVec 26) v, (∀ e, p ≠ .csr e) → s.seas.resetLow = false → a.toNat % 4 = 0 → s.dom (domainOf a.toNat) = false →
     s.season ≠ 0 → s.season ≠ 4 → s.season ≠ 5 → Does (.registerWrite p a .dword v) s fun t =>
       t.tst 0x00C 6 = true ∧ Raises s t 14 0 (pathKind p).1 (pathKind p).2 ∧ RegsBut s t [0x00C] ∧
       { t with bar := s.bar, faults := s.faults } = s) ∧
   (∀ s p (a : BitVec 26) v, Reached s p a.toNat → a.toNat % 4 = 0 → isReg a.toNat = false → weBlank a.toNat = false →
     Does (.registerWrite p a .dword v) s fun t => t.tst 0x2000 1 = true ∧ OnlyRegs s t [0x2000, 0x2004]) ∧
   (∀ s p (a : BitVec 37) wr, s.seas.resetLow = false → (s.season = 0 ∨ s.season = 4 ∨ s.season = 5) →
     (a.getLsbD 36 = true ∨ domainOf (a.toNat % 2 ^ 26) ≠ 0) → Does (.winterAccess p a wr) s fun t =>
       t.tst 0x00C 5 = true ∧ RegsBut s t [0x00C] ∧
       t.outbox = (if wr then s.outbox else s.outbox ++ [.readData p 0xFFFFFFFF]) ∧
       t.seas = (if s.season = 0 ∧ s.tst 0x030 0 then { s.seas with held := true } else s.seas) ∧
       { t with bar := s.bar, outbox := s.outbox, seas := s.seas } = s))

/-- R28, R358, R359, R444: RESET_N at once puts every register and memory at its reset value, but for the pins, the supplies and
CALNV; a release ends it; so does a collapse of VAON, with the supplies lost. The model's choices it rests on: logs 6, 8 and
12. -/
def Obligations.ResetAndSupplies : Prop :=
  (∀ s, Does .resetNAssert s fun t => t.seas.resetLow = true ∧ (∀ a, a ≠ 0x00C → t.rd a = State.reset.rd a) ∧
    t.hbm = [] ∧ t.tabs = [] ∧ t.engs = [] ∧ t.pes = [] ∧ t.txs = [] ∧ t.rxs = [] ∧ t.chans = [] ∧ t.wtc = 0 ∧ t.epoch = 0 ∧
    t.faults = [] ∧ t.glbLock = false ∧ t.mcsCopy = none ∧ t.calW = s.calW ∧ t.calF = s.calF ∧ t.pending = s.pending ∧
    t.tst 0x00C 0 = s.tst 0x00C 0) ∧
  (∀ s, Does .resetNRelease s fun t => t = { s with seas := { s.seas with resetLow := false } }) ∧
  (∀ s, Does .vaonCollapse s fun t => (∀ a, a ≠ 0x00C → t.rd a = State.reset.rd a) ∧ t.tst 0x00C 0 = false ∧ t.hbm = [] ∧
    t.engs = [] ∧ t.faults = [] ∧ t.calW = s.calW ∧ t.seas.resetLow = s.seas.resetLow) ∧
  (∀ s, Does .pwrGoodRise s fun t => t.tst 0x00C 0 = true ∧ OnlyRegs s t [0x00C]) ∧
  (∀ s hbm, s.season = 0 → Does (.supplyLoss hbm) s fun t => t.tst 0x00C 0 = false ∧ t.season = 0 ∧
    (hbm = true → t.hbm = [] ∧ t.rdf 0x038 0 4 = 0) ∧ (hbm = false → OnlyRegs s t [0x00C])) ∧
  (∀ s hbm, s.season ≠ 0 → Does (.supplyLoss hbm) s fun t => t.tst 0x00C 0 = false ∧ t.season = 0 ∧ t.rdf 0x038 28 4 = 5 ∧
    t.engs = [] ∧ t.hbm = [] ∧ (∀ a, domainOf a ≠ 0 → a < 0x2000 ∨ 0x4020 ≤ a → t.rd a = State.reset.rd a))

/-- R355, R407–R409, R449: a function level reset clears the endpoint's settings and the MSI-X table; PERST does so and takes the
link down; a link that comes up shows width and speed (its Bus Master Enable: log 18); a vector that is unmasked sends what
was pending. The model's choices it rests on: log 65. -/
def Obligations.PcieEvents : Prop :=
  (∀ s, Does .functionLevelReset s fun t => t.msixEn = false ∧ t.msixMask = false ∧ t.busMaster = false ∧
    (∀ a, 0x3000 ≤ a → a < 0x4020 → t.rd a = State.reset.rd a) ∧ (∀ a, (a < 0x3000 ∨ 0x4020 ≤ a) → a ≠ 0x2000 → t.rd a = s.rd a) ∧
    (s.dom 2 = true → t.tst 0x2000 3 = true) ∧
    { t with msixEn := s.msixEn, msixMask := s.msixMask, busMaster := s.busMaster, bar := s.bar } = s) ∧
  (∀ s, Does .pciePerst s fun t => t.msixEn = false ∧ t.busMaster = false ∧ t.tst 0x2000 0 = false ∧
    (∀ a, 0x3000 ≤ a → a < 0x4020 → t.rd a = State.reset.rd a) ∧ t.hbm = s.hbm ∧ t.engs = s.engs) ∧
  (∀ s, Does .linkDown s fun t => t.tst 0x2000 0 = false ∧ t.busMaster = false ∧ RegsBut s t [0x2000] ∧
    { t with bar := s.bar, busMaster := s.busMaster } = s) ∧
  (∀ s w sp bme, s.seas.resetLow = false → s.season ≠ 0 → Does (.pcieLinkUp w sp bme) s fun t => t.busMaster = bme ∧
    t.rdf 0x2000 0 1 = 1 ∧ t.rdf 0x2000 5 3 = sp.toNat ∧ t.rdf 0x2000 8 6 = w.toNat ∧ RegsBut s t [0x2000] ∧
    { t with bar := s.bar, busMaster := s.busMaster } = s) ∧
  (∀ s (v : Fin 256), Reached s .pcie (0x300C + 16 * v.val) → s.season ≠ 0 → s.season ≠ 4 → s.msixEn = true → s.msixMask = false →
    s.tst (0x4000 + v.val / 32 * 4) (v.val % 32) = true → Does (.msixUnmask (.vector v)) s fun t =>
      .msix v.val ∈ t.outbox ∧ t.tst (0x4000 + v.val / 32 * 4) (v.val % 32) = false ∧ t.rd (0x300C + 16 * v.val) = 0) ∧
  (∀ s (v : Fin 256), s.season ≠ 0 → s.season ≠ 4 → s.msixMask = false →
    s.tst (0x4000 + v.val / 32 * 4) (v.val % 32) = true → s.tst (0x300C + 16 * v.val) 0 = false →
      Does (.msixUnmask .enable) s fun t => t.msixEn = true ∧ .msix v.val ∈ t.outbox)

namespace Sys2Proof.Machine

/-- What a START of engine e needs (R21, R85, R351, R364). -/
def MayStart (s : State) (e : Nat) : Prop :=
  (s.eng e).st = .stopped ∧ s.dom 23 = true ∧ s.dom (if e < 64 then 8 + e / 8 else 16 + (e - 64) / 8) = true ∧
  s.tst 0x00C 1 = true ∧ (s.eng e).hold = 0 ∧ s.tst (mcsA 0x004) 0 = false ∧ (e < 64 → s.rdf (peA e 0x1C1C) 8 4 = 0)

/-- An occasion of vector v: it is sent, or its pending bit sets while it may not be (R355, R409). -/
def Irq (s t : State) (v : Nat) : Prop :=
  if s.season ≠ 0 ∧ s.season ≠ 4 ∧ s.msixEn = true ∧ s.msixMask = false ∧ s.tst (0x300C + 16 * v) 0 = false then
    .msix v ∈ t.outbox
  else t.tst (0x4000 + v / 32 * 4) (v % 32) = true

/-- The KIND and INDEX of an engine (R391). -/
def kindOf (e : Nat) : Nat := if e < 64 then 1 else 2
def idxOf (e : Nat) : Nat := e % 64

end Sys2Proof.Machine

/-- R21, R46, R85–R87, R111, R137, R181, R241: the commands of an engine in each of its states. START sets what the rules name and
nothing else of the engine, or is refused with CFG; STOP, STOP_NOW and SUSPEND act at once between untimed instructions and
wait for the boundary else; RESUME judges a pending AT again; CONT ends SIG_WAIT. The model's choices it rests on: logs 16, 31
and 35. -/
def Obligations.EngineCommands : Prop :=
  ∀ s p (e : Fin 96), Reached s p (engA e.val 0x000) →
    let x := s.eng e.val
    let at_ := s.stopAddr e.val
    let open_ := x.st = .running ∧ x.timed = false ∧ s.midIssue e.val = false
    let held := x.st = .running ∧ (x.timed = true ∨ s.midIssue e.val = true)
    let others := fun t : State => ∀ k, k ≠ e.val → t.eng k = s.eng k
    (s.season ≠ 3 → MayStart s e.val → Does (.start p e) s fun t => others t ∧ t.hbm = s.hbm ∧ t.faults = s.faults ∧
      t.eng e.val = { x with st := .running, wait := .none, pc := s.rdf (engA e.val 0x008) 0 14,
                             lastPc := s.rdf (engA e.val 0x008) 0 14, flags := 0, rs := [], timed := false, slot := 0,
                             slotAt := s.now, slotOff := 0, secLen := 0, atTick := none, gapDone := false, throttled := false,
                             stopPend := false, suspPend := false, sigSync := none, sigQ := [], dcache := [] } ∧
      (e.val < 64 → (t.pe e.val).vcyc = 0 ∧ (t.pe e.val).ffail = 0 ∧ (t.pe e.val).vmask = 0 ∧ (t.pe e.val).inflight = [] ∧
        (t.pe e.val).vcache = [] ∧ (t.pe e.val).sites = (s.pe e.val).sites ∧
        (t.pe e.val).vbtBase = (s.rd64 (peA e.val 0x1000)).toNat % 2 ^ 36 / 64 * 64 ∧
        (t.pe e.val).vbtSize = s.rdf (peA e.val 0x1008) 0 27 ∧ ∀ k < 4, t.rd (peA e.val (0x1CA0 + 4 * k)) = 0) ∧
      (64 ≤ e.val → (t.rx (e.val - 64)).tagCnt = 0 ∧ ((s.rx (e.val - 64)).fifo.length < 256 →
        ∃ r : BitVec 256, (t.rx (e.val - 64)).fifo = (s.rx (e.val - 64)).fifo ++ [r] ∧ fld r 252 4 = 2 ∧ fld r 188 4 = 4 ∧
          fld r 180 8 = 0))) ∧
    (s.season ≠ 3 → ¬ MayStart s e.val → Does (.start p e) s fun t => t = s.cfgErr p) ∧
    (s.season = 3 → Does (.start p e) s fun t => t = s) ∧
    ((open_ ∨ x.st = .suspended ∨ x.st = .sigWait) → Does (.stop p e) s fun t => Stops s t e.val 2 at_ false ∧ others t ∧
      t.hbm = s.hbm ∧ (x.timed = false → t.faults = s.faults)) ∧
    (held → Does (.stop p e) s fun t => t = s.setEng e.val { x with stopPend := true, stopReason := 2 }) ∧
    ((x.st = .stopped ∨ x.st = .stopping) → Does (.stop p e) s (· = s) ∧ Does (.stopNow p e) s (· = s) ∧
      Does (.suspend p e) s (· = s) ∧ Does (.resume p e) s (· = s) ∧ Does (.cont p e) s (· = s)) ∧
    (((x.st = .running ∧ s.midIssue e.val = false) ∨ x.st = .suspended ∨ x.st = .sigWait) → Does (.stopNow p e) s fun t =>
      Stops s t e.val 3 at_ false ∧ others t ∧ t.hbm = s.hbm) ∧
    (s.midIssue e.val = true → Does (.stopNow p e) s fun t => t = s.setEng e.val { x with stopPend := true, stopReason := 3 }) ∧
    ((∀ k, x.wait ≠ .gap k) → (open_ → Does (.suspend p e) s fun t =>
        t = s.setEng e.val { x with st := .suspended, resumeTo := .running, suspPend := false }) ∧
      (x.st = .sigWait → Does (.suspend p e) s fun t =>
        t = s.setEng e.val { x with st := .suspended, resumeTo := .sigWait, suspPend := false })) ∧
    (open_ → ∀ k, x.wait = .gap k → Does (.suspend p e) s fun t => t = s.setEng e.val
      { x with st := .suspended, resumeTo := .running, suspPend := false, wait := .none, throttled := false }) ∧
    (held → Does (.suspend p e) s fun t => t = s.setEng e.val { x with suspPend := true }) ∧
    (x.st = .suspended → (x.wait = .none → Does (.resume p e) s fun t => t = s.setEng e.val { x with st := x.resumeTo }) ∧
      (∀ g pair, x.wait = .atTarget g pair → x.resumeTo = .running →
        (g = s.wtc → Does (.resume p e) s fun t => others t ∧
          t.eng e.val = { x with st := .running, wait := .none, atTick := some s.now }) ∧
        (0 < (g - s.wtc).toNat → (g - s.wtc).toNat < 2 ^ 47 → Does (.resume p e) s fun t => others t ∧
          t.eng e.val = { x with st := .running, atTick := none }) ∧
        (2 ^ 47 ≤ (g - s.wtc).toNat → Does (.resume p e) s fun t => others t ∧ CountsUp s t (timeA 0x044) ∧
          t.eng e.val = { x with st := .running, wait := .none, atTick := some s.now, flags := setb x.flags 0 true }))) ∧
    (x.st = .sigWait → Does (.cont p e) s fun t => t = s.setEng e.val { x with st := .running, sigSync := none })

/-- R59, R65–R67, R73, R84, R86, R338: an engine whose tags are all free comes from STOPPING to STOPPED; a write of local memory
reaches DMEM in any state and IMEM in STOPPED alone; a fetch past the last word, or of a word that names no instruction, is
ILLEGAL; a tag writes its destination back; a DMA engine answers a DMAK. -/
def Obligations.EngineEvents : Prop :=
  (∀ s (e : Fin 96), (s.eng e.val).st = .stopping → (s.eng e.val).tags = [] → Does (.engineStopped e) s fun t =>
    t.eng e.val = { s.eng e.val with st := .stopped } ∧ (∀ k, k ≠ e.val → t.eng k = s.eng k) ∧
    (s.tst (engA e.val 0x01C) 2 = true → Irq s t (67 + e.val)) ∧
    (s.tst (engA e.val 0x01C) 2 = false → { t with engs := s.engs } = s)) ∧
  (∀ s (e : Fin 96), (s.eng e.val).tags ≠ [] → Does (.engineStopped e) s (· = s)) ∧
  (∀ s p (e : Fin 96) (w : BitVec 16) v, Reached s p (memA e.val (4 * w.toNat)) →
    ((0x20000 ≤ 4 * w.toNat ∨ (s.eng e.val).st = .stopped) → Does (.localMemoryWrite p e w v) s fun t =>
      t.rd (memA e.val (4 * w.toNat)) = v ∧ OnlyRegs s t [memA e.val (4 * w.toNat)]) ∧
    (4 * w.toNat < 0x20000 → (s.eng e.val).st ≠ .stopped → Does (.localMemoryWrite p e w v) s (· = s.cfgErr p))) ∧
  (∀ s (e : Fin 96),
    let r := s.vecWait e.val
    let u := issueAt s e.val
    (r.eng e.val).st = .running → (r.eng e.val).wait = .none → r.visOf e.val = none →
    (16384 ≤ (r.eng e.val).pc → Does (.issuePastEnd e) s fun t =>
      Stops u t e.val 4 0x3FFF true ∧ Raises u t 3 2 (kindOf e.val) (idxOf e.val)) ∧
    (∀ w, (r.eng e.val).pc < 16384 → wordOk e.val w = false → Does (.undefinedInstruction e w) s fun t =>
      Stops u t e.val 4 (u.eng e.val).pc false ∧ Raises u t 3 2 (kindOf e.val) (idxOf e.val))) ∧
  (∀ e w, (13 ≤ fld w 60 4 ∨ (e < 64 ∧ 9 ≤ fld w 60 4 ∧ fld w 60 4 ≤ 11) ∨ (64 ≤ e ∧ 5 ≤ fld w 60 4 ∧ fld w 60 4 ≤ 8)) →
    wordOk e w = false) ∧
  (∀ s (e : Fin 96) (tag : Fin 16) rd v why, (s.eng e.val).tag? tag.val = some ⟨rd, some v, why⟩ →
    (why = .average ∨ why = .rres ∨ why = .exact s.now) → Does (.tagWriteback e tag) s fun t =>
      (rd ≠ 0 → (t.eng e.val).reg rd = v) ∧ (t.eng e.val).tag? tag.val = none ∧
      (∀ q, q ≠ rd → (t.eng e.val).reg q = (s.eng e.val).reg q) ∧ (∀ k, k ≠ e.val → t.eng k = s.eng k) ∧
      { t with engs := s.engs } = s) ∧
  (∀ s (e : Fin 96) (tag : Fin 16) rd (d : Fin 4) (c : Fin 16) (w : BitVec 14),
    (s.eng e.val).tag? tag.val = some ⟨rd, none, .dmak d c w⟩ →
    let q := s.dmemDesc e.val w.toNat
    let ch := s.chan (16 * d.val + c.val)
    let answers := fun (n : Nat) (t : State) => (rd ≠ 0 → (t.eng e.val).reg rd = BitVec.ofNat 64 n) ∧
      (t.eng e.val).tag? tag.val = none ∧ (∀ k, k ≠ e.val → t.eng k = s.eng k) ∧ t.hbm = s.hbm ∧ t.bar = s.bar
    ((s.tst (dmaA d.val 0x004) 8 = true ∨ s.season = 3) → Does (.dmakAccept e tag) s fun t => answers 2 t ∧ t.chans = s.chans) ∧
    (s.tst (dmaA d.val 0x004) 8 = false → s.season ≠ 3 → w.toNat % 4 ≠ 0 →
      Does (.dmakAccept e tag) s fun t => answers 3 t ∧ t.chans = s.chans) ∧
    (s.tst (dmaA d.val 0x004) 8 = false → s.season ≠ 3 → w.toNat % 4 = 0 → ch.st ≠ .idle →
      Does (.dmakAccept e tag) s fun t => answers 1 t ∧ t.chans = s.chans) ∧
    (s.tst (dmaA d.val 0x004) 8 = false → s.season ≠ 3 → w.toNat % 4 = 0 → ch.st = .idle → dDerr q = 0 →
      Does (.dmakAccept e tag) s fun t => answers 0 t ∧
        t.chan (16 * d.val + c.val) = { st := .queued, place := .dmem e w.toNat, desc := some q }))

/-- R133, R137, R141–R145, R148–R151, R323: VECTOR_FETCH brings a vector of a block into the cache, marked where its word was
uncorrectable; a starve cycle applies the Starve Vector for one period, counts, and marks the sites at the first; the pattern
registers take what they may take, in the states in which they may; the record of a period is checked as it is read. The
model's choices it rests on: logs 30 and 32. -/
def Obligations.VectorFetchAndPatternRegisters : Prop :=
  (∀ s (n : Fin 64) (index : BitVec 26) (i : BitVec 16) ecc,
    let b := (s.pe n.val).vbtBase + 16 * index.toNat
    let w1 := s.hbmW (b + 8)
    let u := [1, 2, 8, 16].getD (w1.toNat / 2 ^ 16 % 4) 1
    let a := (s.hbmW b).toNat / 64 % 2 ^ 30 * 64 + 8 * u * i.toNat
    (s.eng n.val).st ≠ .stopped → index.toNat < (s.pe n.val).vbtSize → (s.pe n.val).visRun = none →
    i.toNat ≤ w1.toNat % 2 ^ 16 → a + 8 * u ≤ 2 ^ 36 → s.dom (4 + a / 2 ^ 34) = true → vecBytes (s.pe n.val).vcache + 8 * u ≤ 458752 →
    (ecc = .ok ∨ ecc = .ue) → Does (.vectorFetch n index i 1 ecc) s fun t =>
      (∃ v ∈ (t.pe n.val).vcache, v.index = index ∧ v.num = i.toNat ∧ v.bad = decide (ecc = .ue) ∧ v.ahead = true ∧
        (ecc = .ok → v.uis = (List.range u).map (fun j => s.hbmW (a + 8 * j)))) ∧
      (∀ k, k ≠ n.val → t.pe k = s.pe k) ∧ t.hbm = s.hbm ∧ t.engs = s.engs ∧ (ecc = .ok → { t with pes := s.pes } = s)) ∧
  (∀ s (n : Fin 64) q, (s.pe n.val).visRun = some q → (s.eng n.val).st = .running → (s.eng n.val).slotAt = s.now →
    q.next ≤ q.reps → (∀ m, q.matchVis = some m → s.now < m) → s.vecOf n.val q.src q.lit q.next = none →
    let sites := (s.pe n.val).sites
    let abort := s.tst (peA n.val 0x1018) 0
    Does (.starveCycle n) s fun t => (t.eng n.val).slotAt = s.now + s.period n.val q.ts.toNat ∧
      (t.pe n.val).visRun = some { q with starving := true } ∧ CountsUp s t (peA n.val 0x101C) ∧
      t.tst (engA n.val 0x004) 17 = true ∧ t.hbm = s.hbm ∧ (∀ k, k ≠ n.val → t.eng k = s.eng k) ∧
      (q.starving = true → t.faults = s.faults ∧ (t.pe n.val).sites = sites) ∧
      (q.starving = false → Raises s t 5 0 1 n.val ∧ (t.pe n.val).sites = (if abort then 0 else sites) ∧
        ∀ k < 4, sites.getLsbD k = true → t.tst (peA n.val (0x1CA0 + 4 * k)) (if abort then 3 else 2) = true)) ∧
  (∀ s p (n : Fin 64) (v : Word64), Reached s p (peA n.val 0x1014) →
    ((∀ l < 16, v.toNat / 16 ^ l % 16 ≤ 9) → Does (.starveVecWrite p n v) s fun t =>
      t.rd64 (peA n.val 0x1010) = v ∧ OnlyRegs s t [peA n.val 0x1010, peA n.val 0x1014]) ∧
    ((∃ l < 16, 9 < v.toNat / 16 ^ l % 16) → Does (.starveVecWrite p n v) s (· = s.cfgErr p))) ∧
  (∀ s p (n : Fin 64) (w : Fin 16) (v : Word),
    let a := peA n.val (0x1180 + 4 * w.val)
    let fits := fun i => v.toNat / 256 ^ i % 64 ≤ 47 ∧ v.getLsbD (8 * i + 6) = false
    Reached s p a →
    (((s.eng n.val).st = .stopped ∨ (s.eng n.val).st = .suspended) → Does (.apgScrWrite p n w v) s fun t =>
      (∀ i < 4, (fits i → t.rdf a (8 * i) 8 = v.toNat / 256 ^ i % 256) ∧ (¬ fits i → t.rdf a (8 * i) 8 = s.rdf a (8 * i) 8)) ∧
      RegsBut s t [a] ∧ { t with bar := s.bar, faults := s.faults } = s ∧
      ((∀ i < 4, fits i) → t.faults = s.faults) ∧ ((∃ i < 4, ¬ fits i) → Raises s t 15 0 (pathKind p).1 (pathKind p).2)) ∧
    ((s.eng n.val).st ≠ .stopped → (s.eng n.val).st ≠ .suspended → Does (.apgScrWrite p n w v) s (· = s.cfgErr p))) ∧
  (∀ s p (n : Fin 64) (k : Fin 4) (l : Fin 16) (v : Word),
    let a := peA n.val (0x1200 + 64 * k.val + 4 * l.val)
    let ok := v.toNat % 16 ≠ 15 ∧ v.toNat / 2 ^ 14 % 4 ≠ 3 ∧ (v.toNat / 2 ^ 14 % 4 = 0 ∨ v.toNat / 256 % 64 ≤ 23) ∧
      ((s.eng n.val).st = .stopped ∨ (s.eng n.val).st = .suspended)
    Reached s p a →
    (ok → Does (.apgLmapWrite p n k l v) s fun t => t.rd a = v &&& 0xFF0F ∧ OnlyRegs s t [a]) ∧
    (¬ ok → Does (.apgLmapWrite p n k l v) s (· = s.cfgErr p))) ∧
  (∀ s p (n : Fin 64) v, Reached s p (peA n.val 0x1020) →
    ((s.eng n.val).st = .stopped → Does (.sitemapWrite p n v) s fun t =>
      t.rd (peA n.val 0x1020) = v ∧ OnlyRegs s t [peA n.val 0x1020]) ∧
    ((s.eng n.val).st ≠ .stopped → Does (.sitemapWrite p n v) s (· = s.cfgErr p))) ∧
  (∀ s (n : Fin 64) ts up,
    let v := s.fsUpset n.val ts.toNat up
    (v.eng n.val).st = .running →
    (v.fsPeriod n.val ts.toNat = none → Does (.periodRecordRead n ts up) s fun t =>
      t = v.setPe n.val { v.pe n.val with lastTs := some ts }) ∧
    (∀ w, v.fsPeriod n.val ts.toNat = some w →
      let u := (v.setPe n.val { v.pe n.val with visRun := none }).advanceTo (v.eng n.val).slotAt
      Does (.periodRecordRead n ts up) s fun t => Stops u t n.val 6 (v.nextPc n.val) false ∧ Raises u t 2 2 1 n.val ∧
        t.tst (peA n.val 0x1A08) 31 = true ∧ CountsUp u t (peA n.val 0x1A0C) ∧
        (u.tst (peA n.val 0x1A08) 31 = false → w < 64 → t.rdf (peA n.val 0x1A08) 0 12 = ts.toNat * 64 + w)))

/-- R110, R111, R179, R180, R185–R187: a fail becomes visible: each failing lane and each site that has one counts, the site's
flag and SITE_RES set, and a record enters the queue where records are enabled and there is room. A capture brings its record.
The model's choices it rests on: log 36. -/
def Obligations.FailsAndCaptures : Prop :=
  (∀ s (n : Fin 64) vcyc (uis : List (BitVec 16)) lo hi v i, uis.length ≤ 16 →
    let r := s.vecReach n.val vcyc
    let u := r.advanceTo (v.tick + i * v.period + v.strobe)
    let m : BitVec 16 := (uis.zipIdx.map (fun x => x.1 &&& u.failLanes n.val v x.2)).foldl (· ||| ·) 0
    r.flightOf n.val vcyc = some (v, i) → Does (.fail n vcyc uis lo hi) s fun t =>
      (∀ l < 16, (m.getLsbD l = true → CountsUp u t (peA n.val (0x1C40 + 4 * l))) ∧
        (m.getLsbD l = false → t.rd (peA n.val (0x1C40 + 4 * l)) = u.rd (peA n.val (0x1C40 + 4 * l)))) ∧
      (∀ st < 4,
        let ls := u.lanesOf n.val (BitVec.ofNat 4 (2 ^ st))
        (m &&& ls ≠ 0 → CountsUp u t (peA n.val (0x1C80 + 4 * st)) ∧ t.tst (peA n.val (0x1CA0 + 4 * st)) 1 = true ∧
          (t.pe n.val).ffail.getLsbD st = true ∧
          (u.tst (peA n.val 0x1C18) 0 = true → (u.pe n.val).ring.q.length ≤ 60 → u.ringFull n.val = false →
            ∃ b ∈ (t.pe n.val).ring.q, b.tick = v.tick + i * v.period ∧ ∃ bits : BitVec 256, b.body = .record bits ∧
              fld bits 252 4 = 1 ∧ fld bits 250 2 = st ∧ fld bits 244 6 = v.ts.toNat ∧ fld bits 160 40 = (v.vcyc + BitVec.ofNat 40 i).toNat ∧
              fld bits 64 16 = (m &&& ls).toNat)) ∧
        (m &&& ls = 0 → t.rd (peA n.val (0x1C80 + 4 * st)) = u.rd (peA n.val (0x1C80 + 4 * st)) ∧
          (t.pe n.val).ffail.getLsbD st = (u.pe n.val).ffail.getLsbD st)) ∧
      (m = 0 → t = u) ∧ ((u.rau (n.val / 4)).q.length ≤ 1020 → t.hbm = u.hbm) ∧ t.engs = u.engs ∧ (∀ k, k ≠ n.val → t.pe k = u.pe k)) ∧
  (∀ s (n : Fin 64) vcyc (ui : Fin 16) lo hi v i,
    let r := s.vecReach n.val vcyc
    let u := r.advanceTo (v.tick + i * v.period + v.strobe)
    let c : BitVec 16 := v.lanesSym ui.val (· == 10) &&& v.caps &&& u.lanesOf n.val (v.sites &&& (u.pe n.val).sites)
    r.flightOf n.val vcyc = some (v, i) →
    ((v.kind = .starve ∨ c = 0 ∨ u.tst (peA n.val 0x1C18) 1 = false) → Does (.capture n vcyc ui lo hi) s (· = u)) ∧
    (v.kind ≠ .starve → c ≠ 0 → u.tst (peA n.val 0x1C18) 1 = true → (u.pe n.val).ring.q.length < 64 → u.ringFull n.val = false →
      Does (.capture n vcyc ui lo hi) s fun t => { t with pes := u.pes } = u ∧ (∀ k, k ≠ n.val → t.pe k = u.pe k) ∧
        ∃ b ∈ (t.pe n.val).ring.q, b.tick = v.tick + i * v.period ∧ ∃ bits : BitVec 256, b.body = .record bits ∧
          fld bits 252 4 = 3 ∧ fld bits 64 16 = c.toNat ∧ fld bits 48 4 = ui.val ∧ fld bits 32 16 = (lo &&& c).toNat ∧
          fld bits 16 16 = (hi &&& c).toNat))

/-- R48, R50, R182–R185, R189, R331: the next entry of the fail queue reaches its position in HBM and FRING_WR goes on; after a
loss a RESUME beacon does; an uncorrectable one is lost. RING_RESET empties the ring and takes its region; FRING_SIZE and
FRING_RD are held to their ranges. R190–R192, R328, R331: a bitmap update sets its bits in its word of HBM; a fill of a region
writes zeros to it and nothing else. The model's choices it rests on: logs 21, 35 and 36. -/
def Obligations.FailRingsAndBitmaps : Prop :=
  ((∀ s (n : Fin 64) ecc,
     let q := (s.pe n.val).ring
     let base := (s.ringOf n.val).1
     let cnt := (s.ringOf n.val).2
     let w := (s.rd (peA n.val 0x1C0C)).toNat
     let room := s.ringFull n.val = false ∧ s.dom (4 + (base + 32 * w) / 2 ^ 34) = true
     let placed := fun (b : BitVec 256) (t : State) => t.hbmGet (base + 32 * w) 32 = bytesOf 32 b.toNat ∧
       (∀ a, (a < base + 32 * w ∨ base + 32 * w + 32 ≤ a) → t.hbmB a = s.hbmB a) ∧
       t.rd (peA n.val 0x1C0C) = BitVec.ofNat 32 ((w + 1) % cnt) ∧ RegsBut s t [peA n.val 0x1C0C] ∧ t.engs = s.engs
     (q.lost = false → q.q = [] → Does (.failRecordWrite n ecc) s (· = s)) ∧
     (q.lost = false → room → ∀ x l b, q.q = x :: l → x.body = .record b →
       (ecc ≠ .ue → Does (.failRecordWrite n ecc) s fun t => placed b t ∧ (t.pe n.val).ring.q = l ∧
         (q.recs ≠ 0xFFFFFFFF → (t.pe n.val).ring.recs = q.recs + 1) ∧ (ecc = .ce → Raises s t 0 1 1 n.val) ∧
         (ecc = .ok → t.faults = s.faults)) ∧
       (ecc = .ue → Does (.failRecordWrite n ecc) s fun t => (t.pe n.val).ring.q = l ∧ (t.pe n.val).ring.lost = true ∧
         CountsUp s t (peA n.val 0x1C20) ∧ Raises s t 1 0 1 n.val ∧ t.hbm = s.hbm ∧
         t.rd (peA n.val 0x1C0C) = s.rd (peA n.val 0x1C0C))) ∧
     (q.lost = false → room → ecc = .ok → ∀ x l why full prior, q.q = x :: l → x.body = .beacon why full prior →
       Does (.failRecordWrite n ecc) s fun t => (t.pe n.val).ring.q = l ∧ (t.pe n.val).ring.recs = 0 ∧
         (t.pe n.val).ring.last = full ∧ ∃ b : BitVec 256, placed b t ∧ fld b 252 4 = 2 ∧ fld b 188 4 = why.toNat ∧
           fld b 180 8 = (if why = 4 then 0 else q.seq.toNat) ∧ fld b 128 32 = q.recs.toNat ∧ fld b 64 64 = full.toNat) ∧
     (q.lost = true → room → Does (.failRecordWrite n ecc) s fun t => (t.pe n.val).ring.lost = false ∧
       (t.pe n.val).ring.q = q.q ∧ ∃ b : BitVec 256, placed b t ∧ fld b 252 4 = 2 ∧ fld b 188 4 = 5)) ∧
   (∀ s p (n : Fin 64), Reached s p (peA n.val 0x1C14) →
     let base := (s.rd64 (peA n.val 0x1C00)).toNat % 2 ^ 36 / 2 ^ 20 * 2 ^ 20
     let size := s.rdf (peA n.val 0x1C08) 0 13
     ((s.eng n.val).st ≠ .stopped → Does (.ringReset p n) s (· = s.cfgErr p)) ∧
     ((s.eng n.val).st = .stopped → Does (.ringReset p n) s fun t => t.rd (peA n.val 0x1C0C) = 0 ∧ t.rd (peA n.val 0x1C10) = 0 ∧
       t.hbm = s.hbm ∧ t.engs = s.engs ∧
       ((s.pe n.val).ring.q.length < 64 → (t.pe n.val).ring.lost = false ∧
         ∃ b ∈ (t.pe n.val).ring.q, b.tick = s.now ∧ ∃ r f o, b.body = .beacon r f o) ∧
       (base + size * 2 ^ 20 ≤ 2 ^ 36 → (t.pe n.val).ringBase = base ∧ (t.pe n.val).ringN = size * 32768 ∧ t.faults = s.faults) ∧
       (2 ^ 36 < base + size * 2 ^ 20 → (t.pe n.val).ringN = (s.pe n.val).ringN ∧ t.tst (peA n.val 0x1C1C) 3 = true ∧
         Raises s t 15 0 (pathKind p).1 (pathKind p).2))) ∧
   (∀ s p (n : Fin 64) (v : Word), Reached s p (peA n.val 0x1C08) →
     let m := v.toNat % 2 ^ 13
     (1 ≤ m → m ≤ 4096 → Does (.fringSizeWrite p n v) s fun t =>
       t.rd (peA n.val 0x1C08) = BitVec.ofNat 32 m ∧ OnlyRegs s t [peA n.val 0x1C08]) ∧
     ((m = 0 ∨ 4096 < m) → Does (.fringSizeWrite p n v) s fun t =>
       t.tst (peA n.val 0x1C1C) 3 = true ∧ RegsBut s t [peA n.val 0x1C1C] ∧ Raises s t 15 0 (pathKind p).1 (pathKind p).2)) ∧
   (∀ s p (n : Fin 64) (v : Word), Reached s p (peA n.val 0x1C10) →
     let m := v.toNat % 2 ^ 27
     (m < (s.ringOf n.val).2 → Does (.fringRdWrite p n v) s fun t =>
       t.rd (peA n.val 0x1C10) = BitVec.ofNat 32 m ∧ OnlyRegs s t [peA n.val 0x1C10]) ∧
     ((s.ringOf n.val).2 ≤ m → Does (.fringRdWrite p n v) s (· = s.cfgErr p)))) ∧
  ((∀ s (n : Fin 64) ecc, (s.pe n.val).bmpq = [] → Does (.bitmapUpdate n ecc) s (· = s)) ∧
   (∀ s (n : Fin 64) ecc x l, (s.pe n.val).bmpq = x :: l → x.addr + 8 ≤ 2 ^ 36 → s.dom (4 + x.addr / 2 ^ 34) = true →
     let kept := fun t : State => (t.pe n.val).bmpq = l ∧ t.engs = s.engs ∧
       ∀ a, (a < x.addr ∨ x.addr + 8 ≤ a) → t.hbmB a = s.hbmB a
     (ecc = .ok → Does (.bitmapUpdate n ecc) s fun t => kept t ∧ t.hbmW x.addr = s.hbmW x.addr ||| x.bits ∧ t.bar = s.bar ∧
       t.faults = s.faults) ∧
     (ecc = .ue → Does (.bitmapUpdate n ecc) s fun t => kept t ∧ t.hbmW x.addr = x.bits ∧
       t.tst (peA n.val (0x1CA0 + 4 * x.site.val)) 6 = true ∧ Raises s t 1 0 7 (x.addr / 2 ^ 34))) ∧
   (∀ s (n : Fin 64) ecc x l, (s.pe n.val).bmpq = x :: l → x.addr + 8 ≤ 2 ^ 36 → s.dom (4 + x.addr / 2 ^ 34) = false →
     Does (.bitmapUpdate n ecc) s fun t => t.hbm = s.hbm ∧ (t.pe n.val).bmpq = l ∧ CountsUp s t (peA n.val 0x1C24) ∧
       t.tst (peA n.val (0x1CA0 + 4 * x.site.val)) 6 = true) ∧
   (∀ s p (n : Fin 64) (k : Fin 4), Reached s p (peA n.val 0x1C2C) →
     let base := s.bmpBase n.val k.val
     let size := s.bmpSize n.val k.val
     let ok := (s.eng n.val).st = .stopped ∧ base + size ≤ 2 ^ 36
     (ok → Does (.bmpClear p n k) s fun t => (∀ a, base ≤ a → a < base + size → t.hbmB a = 0) ∧
       (∀ a, (a < base ∨ base + size ≤ a) → t.hbmB a = s.hbmB a) ∧ t.tst (peA n.val 0x1C1C) (8 + k.val) = true ∧
       RegsBut s t [peA n.val 0x1C1C] ∧ { t with hbm := s.hbm, bar := s.bar } = s) ∧
     (¬ ok → Does (.bmpClear p n k) s fun t => t.hbm = s.hbm ∧ t.tst (peA n.val 0x1C1C) 3 = true ∧
       RegsBut s t [peA n.val 0x1C1C] ∧ Raises s t 15 0 (pathKind p).1 (pathKind p).2)) ∧
   (∀ s (n : Fin 64) (k : Fin 4), Does (.bmpClearDone n k) s fun t => t.tst (peA n.val 0x1C1C) (8 + k.val) = false ∧
     OnlyRegs s t [peA n.val 0x1C1C]))

/-- R193–R202: a cell fail is taken from the queue and entered in its block; a row with more cells than there are spare columns is
repaired at once. A search leaves a block no longer dirty, and the rows and columns it finds cover every cell within the
spares. CLEAR and SEAL with their ends; after SEAL's every block is final. The model's choices it rests on: log 37. -/
def Obligations.RepairAnalysis : Prop :=
  (∀ s (u : Fin 16) ecc, (s.rau u.val).q = [] → Does (.cellFail u ecc) s (· = s)) ∧
  (∀ s (u : Fin 16) ecc x l, (s.rau u.val).q = x :: l →
    let k := x.site
    let site := s.site k
    let popped := s.setRau u.val { s.rau u.val with q := l }
    let nbx := s.rdf (rauA k 0x04) 8 4
    let bx := s.rdf (rauA k 0x04) 24 5
    let nby := s.rdf (rauA k 0x04) 0 4
    let by_ := s.rdf (rauA k 0x04) 16 5
    let fits := x.x.toNat < 2 ^ (bx + nbx) ∧ x.y.toNat < 2 ^ (by_ + nby)
    let b := x.y.toNat / 2 ^ by_ * 2 ^ nbx + x.x.toNat / 2 ^ bx
    let row := x.y.toNat % 2 ^ by_
    let col := x.x.toNat % 2 ^ bx
    let old := site.block b
    let res := old.residue ++ [(row, col)]
    let rec_ := s.rauRec k b
    let new := fun (t : State) => (t.site k).block b
    let kept := fun t : State => (t.rau u.val).q = l ∧ t.engs = s.engs ∧ (∀ j, j ≠ k → t.site j = s.site j) ∧
      ∀ a, (a < rec_ ∨ rec_ + 512 ≤ a) → t.hbmB a = s.hbmB a
    ((site.active = false ∨ s.tst (rauA k 0x00) 31 = false) → Does (.cellFail u ecc) s (· = popped)) ∧
    (site.active = true → s.tst (rauA k 0x00) 31 = true →
      (¬ fits → Does (.cellFail u ecc) s fun t => t.tst (rauA k 0x24) 3 = true ∧ OnlyRegs popped t [rauA k 0x24]) ∧
      (fits → old.final ≠ none → Does (.cellFail u ecc) s (· = popped)) ∧
      (fits → old.final = none → s.dom (4 + rec_ / 2 ^ 34) = true → ecc = .ue → Does (.cellFail u ecc) s fun t => kept t ∧
        (new t).final = some (.timeout 7) ∧ Raises s t 1 0 7 (rec_ / 2 ^ 34)) ∧
      (fits → old.final = none → s.dom (4 + rec_ / 2 ^ 34) = true → ecc = .ok →
        ((row ∈ old.rows ∨ col ∈ old.cols ∨ (row, col) ∈ old.residue) → Does (.cellFail u ecc) s (· = popped)) ∧
        (row ∉ old.rows → col ∉ old.cols → (row, col) ∉ old.residue →
          (64 ≤ old.residue.length → Does (.cellFail u ecc) s fun t => kept t ∧ (new t).final = some (.timeout 5)) ∧
          (old.residue.length < 64 → (∀ i, (res.filter (fun c => c.1 == i)).length ≤ old.sc) →
            (∀ i, (res.filter (fun c => c.2 == i)).length ≤ old.sr) → Does (.cellFail u ecc) s fun t => kept t ∧
              new t = { old with residue := res, dirty := true } ∧ t.bar = s.bar) ∧
          (old.residue.length < 64 → (∀ i, i ≠ row → (res.filter (fun c => c.1 == i)).length ≤ old.sc) →
            old.sc < (res.filter (fun c => c.1 == row)).length → 0 < old.sr → Does (.cellFail u ecc) s fun t => kept t ∧
              row ∈ (new t).rows))))) ∧
  (∀ s (u : Fin 16) ecc, (∀ i < 16, (s.site (16 * u.val + i)).dirtyBlock = none) → Does (.repairSearch u ecc) s (· = s)) ∧
  (∀ s (u : Fin 16) ecc d b, d < 16 →
    let i := ((s.rau u.val).next + d) % 16
    let k := 16 * u.val + i
    (∀ j < d, (s.site (16 * u.val + ((s.rau u.val).next + j) % 16)).dirtyBlock = none) →
    (s.site k).dirtyBlock = some b → ((s.site k).block b).final = none →
    s.dom (4 + s.rauRec k b / 2 ^ 34) = true → ecc ≠ .ue → Does (.repairSearch u ecc) s fun t =>
      let w := (t.site k).block b
      (t.rau u.val).next = (i + 1) % 16 ∧ (t.rau u.val).q = (s.rau u.val).q ∧ w.dirty = false ∧ t.engs = s.engs ∧
      (∀ j, j ≠ k → t.site j = s.site j) ∧
      (w.final = none → (∀ c ∈ w.residue, c.1 ∈ w.solRows ∨ c.2 ∈ w.solCols) ∧ w.solRows.length ≤ w.sr ∧
        w.solCols.length ≤ w.sc) ∧
      (w.final = none ∨ w.final = some (.notRepairable 3) ∨ w.final = some (.timeout 4))) ∧
  (∀ s p (n : Fin 64) (st : Fin 4),
    let k := 4 * n.val + st.val
    let base := s.rauBase k
    let cnt := 2 ^ (s.rdf (rauA k 0x04) 8 4 + s.rdf (rauA k 0x04) 0 4)
    let ok := (s.eng n.val).st = .stopped ∧ s.tst (rauA k 0x24) 0 = false ∧ base + 512 * cnt ≤ 2 ^ 36
    Reached s p (rauA k 0x0C) →
    (ok → Does (.clear p n st) s fun t =>
      t.site k = { active := true, sr := s.rdf (rauA k 0x00) 24 6, sc := s.rdf (rauA k 0x00) 16 6 } ∧
      (∀ j, j ≠ k → t.site j = s.site j) ∧ t.rd (rauA k 0x18) = 0 ∧ t.rd (rauA k 0x1C) = 0 ∧ t.tst (rauA k 0x24) 0 = true ∧
      RegsBut s t [rauA k 0x18, rauA k 0x1C, rauA k 0x24] ∧
      (∀ b < cnt, s.dom (4 + (base + 512 * b) / 2 ^ 34) = true → t.hbmW (base + 512 * b) = 0) ∧
      (∀ a, (a < base ∨ base + 512 * cnt ≤ a) → t.hbmB a = s.hbmB a)) ∧
    (¬ ok → Does (.clear p n st) s fun t => t.tst (rauA k 0x24) 1 = true ∧ RegsBut s t [rauA k 0x24] ∧
      Raises s t 15 0 (pathKind p).1 (pathKind p).2 ∧ { t with bar := s.bar, faults := s.faults } = s) ∧
    (((s.site k).active = false ∨ (s.site k).isSealed = true) → Does (.seal p n st) s (· = s)) ∧
    ((s.site k).active = true → (s.site k).isSealed = false → Does (.seal p n st) s fun t =>
      t.site k = { s.site k with isSealed := true } ∧ t.tst (rauA k 0x18) 30 = true ∧ t.tst (rauA k 0x24) 0 = true ∧
      RegsBut s t [rauA k 0x18, rauA k 0x24] ∧ { t with raus := s.raus, bar := s.bar } = s)) ∧
  (∀ s (n : Fin 64) (st : Fin 4),
    let k := 4 * n.val + st.val
    ((s.site k).isSealed = false → Does (.rauClearDone n st) s fun t => t.tst (rauA k 0x24) 0 = false ∧
      OnlyRegs s t [rauA k 0x24]) ∧
    ((s.site k).isSealed = true → s.tst (rauA k 0x24) 0 = true → (s.site k).dirtyBlock = none →
      (∀ c ∈ (s.rau (k / 16)).q, c.site ≠ k) → Does (.rauSealDone n st) s fun t =>
        (∀ b < s.rauBlocks k, ((t.site k).block b).final = some ((((s.site k).block b).final).getD .repair)) ∧
        t.tst (rauA k 0x18) 31 = true ∧ t.tst (rauA k 0x24) 0 = false ∧ t.engs = s.engs ∧
        (∀ j, j ≠ k → t.site j = s.site j)))

/-- R154, R156, R158, R453: a trip takes a lane's driver away until its flag is cleared and raises PIN at level 2; LANE_CFG takes
a write whole or refuses it. R163, R165, R167–R169, R322–R324: COMMIT and LOAD make the buffer busy and are refused while it
is; a COMMIT of a record that keeps the rules of R163 puts its 64 words into the store, a bad one changes none and says what
it breaks; a LOAD brings the words back. A region is read under its parity, and a host write to it is refused. The model's
choices it rests on: logs 22, 44 and 70. -/
def Obligations.PinsAndFormatStore : Prop :=
  ((∀ s (n : Fin 64) (l : Fin 16), ∀ i, (i = 8 ∨ i = 9) → Does (if i = 8 then .ocTrip n l else .ovTrip n l) s fun t =>
     t.tst (pbA n.val (0x40 + 4 * l.val)) i = true ∧ t.drvOn n.val l.val = false ∧ RegsBut s t [pbA n.val (0x40 + 4 * l.val)] ∧
     t.faults = faultInsert ⟨9, 2, 3, n.val, l.val, s.full, s.now⟩ s.faults ∧
     { t with bar := s.bar, faults := s.faults } = s) ∧
   (∀ s p (n : Fin 64) (l : Fin 16) v,
     let a := pbA n.val (0x40 + 4 * l.val)
     Reached s p a → Does (.pinStatClear p n l v) s fun t => (∀ i, t.tst a i = (s.tst a i && !((i == 8 || i == 9) && v.getLsbD i))) ∧
       OnlyRegs s t [a]) ∧
   (∀ s p (n : Fin 64) (l : Fin 16) (v : Word),
     let a := pbA n.val (4 * l.val)
     let ok := v.toNat % 4 ≠ 3 ∧ (v.toNat / 2 ^ 16 = s.rdf a 16 16 ∨ (s.eng n.val).st = .stopped)
     Reached s p a →
     (ok → Does (.laneCfgWrite p n l v) s fun t => t.rd a = v &&& 0xFFFF0003 ∧ OnlyRegs s t [a]) ∧
     (¬ ok → Does (.laneCfgWrite p n l v) s (· = s.cfgErr p)))) ∧
  ((∀ s p (n : Fin 64) (ts : BitVec 6) up, Reached s p (peA n.val 0x1A00) →
     let v := s.fsUpset n.val ts.toNat up
     let begun := fun (w : State) (c : Nat) (t : State) => (t.pe n.val).fmt = some (BitVec.ofNat 9 c) ∧
       t.tst (peA n.val 0x1A04) 30 = true ∧ RegsBut w t [peA n.val 0x1A04] ∧ { t with pes := w.pes, bar := w.bar } = w
     ((s.pe n.val).fmt = none → Does (.commit p n ts) s (begun s ts.toNat) ∧ Does (.fmtLoad p n ts up) s (begun v (256 + ts.toNat))) ∧
     ((s.pe n.val).fmt ≠ none → Does (.commit p n ts) s (· = s.cfgErr p) ∧ Does (.fmtLoad p n ts up) s (· = v.cfgErr p))) ∧
   (∀ s (n : Fin 64), (s.pe n.val).fmt = none → Does (.fmtCmdDone n) s (· = s)) ∧
   (∀ s (n : Fin 64) (ts : BitVec 6),
     let stage := fun w => peA n.val (0x1800 + 8 * w)
     let store := fun w => fsA n.val (ts.toNat * 0x200 + 8 * w)
     let buf := (List.range 64).map (fun w => s.rd64 (stage w))
     let a := peA n.val 0x1A04
     let period := (s.rd64 (stage 0)).toNat % 2 ^ 25
     ((s.pe n.val).fmt = some (BitVec.ofNat 9 (256 + ts.toNat)) → s.fsFirst n.val ts.toNat 64 = none →
       Does (.fmtCmdDone n) s fun t => (∀ w < 64, t.rd64 (stage w) = s.rd64 (store w)) ∧ (t.pe n.val).fmt = none ∧
         t.rdf a 16 6 = ts.toNat ∧ t.tst a 30 = false ∧ t.hbm = s.hbm ∧ t.faults = s.faults) ∧
     ((s.pe n.val).fmt = some (BitVec.ofNat 9 ts.toNat) →
       (recordRule buf = none → Does (.fmtCmdDone n) s fun t => (∀ w < 64, t.rd64 (store w) = s.rd64 (stage w)) ∧
         (∀ w < 64, t.fsBad n.val ts.toNat w = false) ∧ (t.pe n.val).fmt = none ∧ t.rdf a 0 4 = 0 ∧ t.tst a 30 = false ∧
         (∃ o, (t.pe n.val).oldRec = some o ∧ o.ts = ts.toNat ∧ o.until_ = s.now + 8) ∧ t.faults = s.faults ∧ t.hbm = s.hbm) ∧
       (∀ lane rule edge, recordRule buf = some (lane, rule, edge) → lane < 16 → rule < 16 → edge < 8 → Does (.fmtCmdDone n) s fun t =>
         (t.pe n.val).fmt = none ∧ t.tst a 31 = true ∧ t.rdf a 12 4 = lane ∧ t.rdf a 8 3 = edge ∧ t.rdf a 0 4 = rule ∧
         RegsBut s t [a] ∧ Raises s t 15 0 1 n.val) ∧
       ((period < 2 ∨ 2 ^ 24 < period) → recordRule buf = some (0, 1, 7)) ∧
       (2 ≤ period → period ≤ 2 ^ 24 → 6 < (s.rd64 (stage 1)).toNat % 16 → recordRule buf = some (0, 2, 7)))) ∧
   (∀ s p (n : Fin 64) (w : BitVec 13) up x, Reached s p (fsA n.val (4 * w.toNat)) →
     let v := s.fsUpset n.val (w.toNat / 128) up
     let ts := w.toNat / 128
     let k := w.toNat / 2 % 64
     Does (.formatStoreWrite p n w x) s (· = s.cfgErr p) ∧
     (v.fsBad n.val ts k = false → Does (.formatStoreRead p n w up) s fun t =>
       t = v.emit (.readData p (v.rd (fsA n.val (4 * w.toNat))))) ∧
     (v.fsBad n.val ts k = true → Does (.formatStoreRead p n w up) s fun t => t.tst (peA n.val 0x1A08) 30 = true ∧
       CountsUp v t (peA n.val 0x1A0C) ∧ Raises v t 2 0 1 n.val ∧
       t.outbox = v.outbox ++ [.readData p (v.rd (fsA n.val (4 * w.toNat)))])))

/-- R170–R176, R371: the sequencer takes the due slice that has moved most; PREPARE takes 6,400 ticks; a switch takes place in a
free window, or in a timed section in a vector that is quiet; what has not happened in time is deferred. The model's choices
it rests on: log 45. -/
def Obligations.Handovers : Prop :=
  (∀ s (n : Fin 64) (l : Fin 16),
    let unit := fun k : Nat => s.unit (17 * n.val + k)
    s.siState n.val = 0 → s.dom (8 + n.val / 8) = true → s.calMay 0 = true → (unit 16).due = false →
    (s.slicePick n.val = some l.val → (unit l.val).due = true ∧
      (∀ k < 16, s.sliceReady n.val k = true → s.calMove (17 * n.val + k) ≤ s.calMove (17 * n.val + l.val)) ∧
      Does (.handoverRequest n l) s fun t => t.siState n.val = 1 ∧ t.siLane n.val = l.val ∧
        t.pe n.val = { s.pe n.val with siReq := s.now, siDue := s.now + 6400 } ∧
        (t.unit (17 * n.val + l.val)).tried = s.now + 1 ∧ RegsBut s t [pbA n.val 0x084] ∧
        { t with pes := s.pes, bar := s.bar, units := s.units } = s) ∧
    (s.slicePick n.val ≠ some l.val → Does (.handoverRequest n l) s (· = s))) ∧
  (∀ s (n : Fin 64) k, (k = 1 ∨ k = 4) → s.siState n.val = k →
    let u := s.advanceTo (s.pe n.val).siDue
    u.siState n.val = k → Does (.prepareDone n) s fun t => t.siState n.val = k + 1 ∧ t.siLane n.val = u.siLane n.val ∧
      OnlyRegs u t [pbA n.val 0x084]) ∧
  (∀ s (n : Fin 64),
    let l := s.siLane n.val
    let x := s.lane (16 * n.val + l)
    let y := s.eng n.val
    let due := (s.pe n.val).siDue
    let quiet := due ≤ x.q8to ∧ 0 < x.q8to
    let switches := fun (at_ st : Nat) (t : State) => t.siState n.val = st ∧ t.siLane n.val = l ∧
      CountsUp (s.advanceTo at_) t (pbA n.val 0x08C) ∧
      OnlyRegs (s.advanceTo at_) t [pbA n.val 0x084, pbA n.val 0x08C]
    let free := y.timed = false ∧ (∀ g b, y.wait ≠ .atTarget g b) ∧ s.rdf (pbA n.val (0x840 + 4 * l)) 4 3 = 0
    let open_ := max (max s.now y.slotAt) due + 1
    (s.pe n.val).visRun = none → (s.pe n.val).starveFrom = none →
    (s.siState n.val = 2 → (quiet → s.tst (pbA n.val 0x080) 16 = true → Does (.takeoverSwitch n) s (switches (max x.q8from due + 1) 3)) ∧
      (¬ quiet ∨ s.tst (pbA n.val 0x080) 16 = false → (free → Does (.takeoverSwitch n) s (switches open_ 3)) ∧
        (¬ free → Does (.takeoverSwitch n) s (· = s)))) ∧
    (s.siState n.val = 5 → (quiet → Does (.returnSwitch n) s (switches (max x.q8from due + 1) 0)) ∧
      (¬ quiet → (free → Does (.returnSwitch n) s (switches open_ 0)) ∧ (¬ free → Does (.returnSwitch n) s (· = s))))) ∧
  (∀ s (n : Fin 64),
    let wait := s.rdf (pbA n.val 0x080) 0 16
    let l := s.siLane n.val
    let u := s.advanceTo (if wait = 0 then (s.pe n.val).siDue + 1 else (s.pe n.val).siReq + 1600 * wait)
    (s.siState n.val = 2 ∨ (s.siState n.val = 1 ∧ wait ≠ 0)) → Does (.handoverDefer n) s fun t => t.siState n.val = 0 ∧
      CountsUp u t (pbA n.val 0x088) ∧ (t.unit (17 * n.val + l)).deferred = some u.now ∧
      RegsBut u t [pbA n.val 0x084, pbA n.val 0x088] ∧ { t with bar := u.bar, units := u.units } = u)

/-- R367–R378: a due unit that is free calibrates when it may; a calibration that completes takes the tile's temperature, counts,
and says so where it failed; REQ, SAVE and the load of the records. The model's choices it rests on: logs 12 and 55. -/
def Obligations.CalibrationUnits : Prop :=
  (∀ s (u : Fin 1344),
    let x := s.unit u.val
    let slice := u.val < 1088 ∧ u.val % 17 ≠ 16
    let may := x.due = true ∧ x.running = false ∧ s.dom (unitDom u.val) = true ∧ s.unitFree u.val = true ∧
      (slice ∨ s.calMay (unitKind u.val) = true)
    (may → Does (.calStart u) s fun t => t.unit u.val = { x with running := true } ∧ (∀ k, k ≠ u.val → t.unit k = s.unit k) ∧
      (u.val < 1088 → u.val % 17 = 16 → t.siState (u.val / 17) = 6) ∧ ((slice ∨ 1088 ≤ u.val) → t.bar = s.bar) ∧
      { t with units := s.units, bar := s.bar } = s) ∧
    (¬ may → Does (.calStart u) s (· = s))) ∧
  (∀ s (u : Fin 1344) good,
    let x := s.unit u.val
    (x.running = false → Does (.calComplete u good) s (· = s)) ∧
    (x.running = true → Does (.calComplete u good) s fun t => (t.unit u.val).running = false ∧ (t.unit u.val).due = x.again ∧
      (t.unit u.val).tlast = s.tileTemp u.val ∧ (good = true → (t.unit u.val).changed = true ∧ t.faults = s.faults) ∧
      (∀ k, k ≠ u.val → t.unit k = s.unit k) ∧ CountsUp s t (calA 0x010) ∧ t.rd64 (calA 0x018) = s.full ∧
      (good = false → t.tst (calA (0x3000 + 4 * u.val)) 30 = true ∧ t.tst (calA 0x004) 4 = true ∧ Raises s t 11 0 8 0) ∧
      (u.val < 1088 → CountsUp s t (calA (0x1000 + 4 * u.val)) ∧ (u.val % 17 = 16 → t.siState (u.val / 17) = 0) ∧
        (u.val % 17 ≠ 16 → t.siState (u.val / 17) = 4 ∧ t.siLane (u.val / 17) = u.val % 17 ∧
          (t.pe (u.val / 17)).siDue = s.now + 6400)) ∧ t.hbm = s.hbm ∧ t.engs = s.engs)) ∧
  (∀ s p, Reached s p (calA 0x000) →
    let kind := s.rdf (calA 0x00C) 29 3
    let u := s.rdf (calA 0x00C) 0 11
    let wanted := fun (k : Nat) (t : State) => (t.unit k).due = true ∧ ((s.unit k).due = true → (s.unit k).running = true →
      (t.unit k).again = true)
    (s.season ≠ 2 → Does (.req p) s (· = s.cfgErr p)) ∧
    (s.season = 2 → kind = 5 → Does (.req p) s fun t => { t with units := s.units } = s ∧
      ∀ k < 1344, (s.dom (unitDom k) = true → wanted k t) ∧ (s.dom (unitDom k) = false → t.unit k = s.unit k)) ∧
    (s.season = 2 → kind < 5 → u < 1344 → unitKind u = kind → s.dom (unitDom u) = true → Does (.req p) s fun t =>
      wanted u t ∧ (∀ k, k ≠ u → t.unit k = s.unit k) ∧ { t with units := s.units } = s) ∧
    (s.season = 2 → kind ≠ 5 → (1344 ≤ u ∨ unitKind u ≠ kind ∨ s.dom (unitDom u) = false) → Does (.req p) s (· = s.cfgErr p)) ∧
    ((s.tst (calA 0x004) 5 = true ∨ s.dom 22 = false) → Does (.save p) s (· = s.cfgErr p)) ∧
    (s.tst (calA 0x004) 5 = false → s.dom 22 = true → Does (.save p) s fun t => t.tst (calA 0x004) 5 = true ∧
      OnlyRegs s t [calA 0x004])) ∧
  (∀ s failed, s.tst (calA 0x004) 5 = true → Does (.saveDone failed) s fun t => t.tst (calA 0x004) 5 = false ∧ t.hbm = s.hbm ∧
    (∀ u : Fin 1344, (s.unit u.val).changed = true → (u ∉ failed → (t.unit u.val).changed = false ∧ (t.recW u.val).saved = true ∧
        (t.recW u.val).good = true ∧ (t.recW u.val).tcal = (s.unit u.val).tlast) ∧
      (u ∈ failed → (t.unit u.val).changed = true ∧ t.recW u.val = s.recW u.val ∧ t.tst (calA 0x004) 6 = true))) ∧
  (∀ s bw bf, s.tst 0x00C 1 = true → s.dom 1 = true → s.tst (calA 0x004) 0 = false → s.tst (calA 0x004) 3 = false →
    let works := fun u : Fin 1344 => (s.recW u.val).saved = true ∧ (s.recW u.val).good = true ∧ u ∉ bw
    let factory := fun u : Fin 1344 => (s.recF u.val).good = true ∧ u ∉ bf
    Does (.calLoadDone bw bf) s fun t =>
      (∀ u : Fin 1344, (works u → (t.unit u.val).tlast = (s.recW u.val).tcal ∧ t.tst (unitA u.val) 28 = false ∧ t.tst (unitA u.val) 29 = false) ∧
        (¬ works u → factory u → (t.unit u.val).tlast = (s.recF u.val).tcal ∧ t.tst (unitA u.val) 28 = true ∧
          t.tst (unitA u.val) 29 = (s.recW u.val).saved)) ∧
      ((∀ u, works u ∨ factory u) → t.tst (calA 0x004) 0 = true) ∧
      ((∃ u, ¬ works u ∧ ¬ factory u) → t.tst (calA 0x004) 3 = true ∧ t.tst (calA 0x004) 0 = false))

namespace Sys2Proof.Machine

/-- A setting of TX[n] is to come at a position; those to come before stay. -/
def SettingSoon (s t : State) (n pos : Nat) (par : TxPar) : Prop :=
  (∃ d ∈ (t.tx n).todo, d.pos = pos ∧ d.par = par) ∧ (∀ d ∈ (s.tx n).todo, d ∈ (t.tx n).todo) ∧
  { t.tx n with todo := [] } = { s.tx n with todo := [] } ∧ (∀ m, m ≠ n → t.tx m = s.tx m)

/-- Port n alone has changed, and holds x. -/
def PortIs (s t : State) (n : Nat) (x : TxPort) : Prop := t.tx n = x ∧ (∀ m, m ≠ n → t.tx m = s.tx m) ∧ { t with txs := s.txs } = s

end Sys2Proof.Machine

/-- R206, R211, R218–R225, R230: a write of a TONE register takes effect at the first granule boundary 8 ticks on; a command of
the host arrives 8 ticks after its write, and then starts an idle port, jumps, steps or stops, or is refused with CFG. R215,
R216, R229, R231, R254: MKROUTE, TAB_SEL and the table window of both ports: the entry at TAB_ADDR is read through the latch
or written with the held low half, TAB_ADDR goes on, and an address past the table sets TAB_ERR. The model's choices it rests
on: logs 38, 39, 40 and 41. -/
def Obligations.TxCommandsAndTables : Prop :=
  ((∀ s p (n : Fin 32) (k : Fin 8) (v : Word),
     let a := fun r => rfA n.val (0x020 + 16 * k.val + 4 * r)
     let at_ := s.txLater n.val
     (Reached s p (a 0) → Does (.toneWrite p n k 0 v) s fun t => t.heldLo p (a 0) = some v ∧ { t with held := s.held } = s) ∧
     (Reached s p (a 1) → Does (.toneWrite p n k 1 v) s fun t => t.heldLo p (a 0) = none ∧
       SettingSoon s t n.val at_ (.ftw k (v.truncate 16) (s.heldLo p (a 0))) ∧ { t with held := s.held, txs := s.txs } = s) ∧
     (Reached s p (a 2) → Does (.toneWrite p n k 2 v) s fun t => SettingSoon s t n.val at_ (.poff k v) ∧ { t with txs := s.txs } = s) ∧
     (Reached s p (a 3) → Does (.toneWrite p n k 3 v) s fun t => SettingSoon s t n.val at_ (.amp k (v.truncate 16)) ∧
       { t with txs := s.txs } = s)) ∧
   (∀ s p (n : Fin 32), Reached s p (rfA n.val 0x000) →
     let x := s.tx n.val
     let sent := fun (c : TxCmd) (t : State) => PortIs s t n.val { x with cmds := x.cmds ++ [(s.now + 8, p, c)] }
     let startSeg := BitVec.ofNat 10 (s.rdf (rfA n.val 0x008) 16 10)
     Does (.play p n) s (sent (.play startSeg false)) ∧ Does (.playStep p n) s (sent (.play startSeg true)) ∧
     Does (.jump p n) s (sent (.jump (BitVec.ofNat 10 (s.rdf (rfA n.val 0x008) 2 10)))) ∧ Does (.step p n) s (sent .step) ∧
     Does (.stopEnd p n) s (sent .stopEnd) ∧ Does (.txStopNow p n) s (sent .stopNow)) ∧
   (∀ s (n : Fin 32), (s.tx n.val).cmds = [] → Does (.txRequestArrival n) s (· = s)) ∧
   (∀ s (n : Fin 32) at_ p c rest, (s.tx n.val).cmds = (at_, p, c) :: rest →
     let u := s.advanceTo at_
     let x := { u.tx n.val with cmds := rest }
     let v := u.setTx n.val x
     let pos := u.txEdge at_
     let idle := x.st = .idle ∧ x.startAt = none
     let arrives := fun (z : TxPort) (t : State) => t.tx n.val = z ∧ (∀ m, m ≠ n.val → t.tx m = u.tx m) ∧
       { t with txs := u.txs, units := u.units } = u
     (idle → (∀ seg step, c = .play seg step → Does (.txRequestArrival n) s
         (arrives { x with seg := seg, plays := 0, stepStart := step, startAt := some (v.txGrid n.val pos) })) ∧
       (∀ seg, c = .jump seg → Does (.txRequestArrival n) s (· = v.cfgErr p)) ∧
       ((c = .stopEnd ∨ c = .stopNow) → Does (.txRequestArrival n) s (· = v))) ∧
     (x.st = .muted → (∀ seg, c = .jump seg → Does (.txRequestArrival n) s (· = v.cfgErr p)) ∧
       ((c = .stopEnd ∨ c = .stopNow) → Does (.txRequestArrival n) s (· = v))) ∧
     (x.st ≠ .idle → ∀ seg step, c = .play seg step → Does (.txRequestArrival n) s (· = v.cfgErr p)) ∧
     (x.st = .playing → (∀ seg, c = .jump seg → Does (.txRequestArrival n) s (arrives { x with req := some (seg, pos) })) ∧
       (c = .stopEnd → Does (.txRequestArrival n) s (arrives { x with stopReq := some (x.stopReq.getD pos) })) ∧
       (c = .stopNow → Does (.txRequestArrival n) s (arrives
         { x with stopNow := some (min (v.txGrid n.val pos) (x.stopNow.getD (v.txGrid n.val pos))) }))) ∧
     (c = .step → (x.st = .waiting → x.startAt = none → Does (.txRequestArrival n) s
         (arrives { x with startAt := some (v.txGrid n.val pos) })) ∧
       (x.st ≠ .waiting → x.trig = none → Does (.txRequestArrival n) s (arrives { x with trig := some pos })) ∧
       (x.st ≠ .waiting → x.trig ≠ none → Does (.txRequestArrival n) s fun t => t.tst (rfA n.val 0x004) 7 = true ∧
         OnlyRegs v t [rfA n.val 0x004])) ∧
     (c = .stopEnd → x.st = .waiting → x.startAt = none → Does (.txRequestArrival n) s fun t => (t.tx n.val).st = .idle ∧
       (t.tx n.val).entry = [] ∧ t.bar = u.bar))) ∧
  ((∀ s p (n : Fin 32) (m : Fin 4) (v : Word),
     let a := rfA n.val (0x0C0 + 4 * m.val)
     let dest := v.toNat / 2 ^ 30
     let ok := v.toNat / 2 ^ 26 % 16 = 0 ∧ v.toNat / 2 ^ 10 % 2 ^ 14 = 0 ∧ (dest = 2 → v.toNat / 2 ^ 8 % 4 = 0) ∧
       (dest = 3 → v.toNat / 2 ^ 6 % 16 = 0)
     Reached s p a →
     (ok → Does (.mkrouteWrite p n m v) s fun t => t.rd a = v ∧ RegsBut s t [a] ∧ { t with txs := s.txs, bar := s.bar } = s ∧
       SettingSoon s t n.val (s.txGrid n.val (15 * s.now)) (.route m v)) ∧
     (¬ ok → Does (.mkrouteWrite p n m v) s (· = s.cfgErr p))) ∧
   (∀ s p (n : Fin 32) rx (v : Word),
     let b := rfA n.val (if rx then 0x4400 else 0x100)
     Reached s p b →
     (v.toNat % 4 ≠ 3 → Does (.tabSelWrite p n rx v) s fun t => t.rd b = BitVec.ofNat 32 (v.toNat % 4) ∧ t.rd (b + 4) = 0 ∧
       RegsBut s t [b, b + 4] ∧ t.tabs = s.tabs ∧ t.hbm = s.hbm ∧ t.faults = s.faults ∧ t.rxs = s.rxs ∧
       (rx = false → (t.tx n.val).stage = [])) ∧
     (v.toNat % 4 = 3 → Does (.tabSelWrite p n rx v) s fun t => t.tst (rfA n.val (if rx then 0x4004 else 0x004)) (if rx then 4 else 9) = true ∧
       RegsBut s t [rfA n.val (if rx then 0x4004 else 0x004)] ∧ Raises s t 15 0 (pathKind p).1 (pathKind p).2 ∧
       { t with bar := s.bar, faults := s.faults } = s)) ∧
   (∀ s p (n : Fin 32) rx hi,
     let b := rfA n.val (if rx then 0x4400 else 0x100)
     let sel := s.rdf b 0 2
     let t_ := sel + (if rx then 4 else 0)
     let w := (s.rd (b + 4)).toNat
     let size := [4096, 8192, 131072, 0, 16384, 4096, 64, 0].getD t_ 0
     let v : Word64 := hi ++ (s.heldLo p (b + 8)).getD (s.rd (b + 8))
     let key := (n.val * 8 + t_) * 2 ^ 18 + w
     let bad := fun t : State => t.tst (rfA n.val (if rx then 0x4004 else 0x004)) (if rx then 4 else 9) = true ∧ t.tabs = s.tabs ∧
       t.rd (b + 4) = s.rd (b + 4) ∧ Raises s t 15 0 (pathKind p).1 (pathKind p).2
     Reached s p (b + 12) →
     (size ≤ w → Does (.tabDataAccess p n rx (some hi)) s bad ∧ Does (.tabDataAccess p n rx none) s bad) ∧
     (w < size → Does (.tabDataAccess p n rx none) s fun t => t.outbox = s.outbox ++ [.readData p (s.getLatch p)] ∧
       t.rd (b + 4) = BitVec.ofNat 32 (w + 1) ∧ RegsBut s t [b + 4] ∧ { t with bar := s.bar, outbox := s.outbox } = s) ∧
     (w < size → (t_ = 2 ∨ t_ = 4 ∨ (t_ = 5 ∧ (s.rx n.val).acq.run = false)) → Does (.tabDataAccess p n rx (some hi)) s fun t =>
       t.tab key = v ∧ (∀ k, k ≠ key → t.tab k = s.tab k) ∧ t.rd (b + 4) = BitVec.ofNat 32 (w + 1) ∧ RegsBut s t [b + 4] ∧
       t.heldLo p (b + 8) = none ∧ t.hbm = s.hbm ∧ t.faults = s.faults) ∧
     (w < size → t_ ≤ 1 → w % (4 / (t_ + 1)) + 1 < 4 / (t_ + 1) → Does (.tabDataAccess p n rx (some hi)) s fun t => t.tabs = s.tabs ∧
       (key, v) ∈ (t.tx n.val).stage ∧ t.rd (b + 4) = BitVec.ofNat 32 (w + 1) ∧ t.faults = s.faults) ∧
     (w < size → t_ = 1 → w % 2 = 1 → Does (.tabDataAccess p n rx (some hi)) s fun t => t.tab key = v ∧
       t.tab (key - 1) = (((s.tx n.val).stage.find? (fun h => h.1 == key - 1)).map (·.2)).getD (s.tab (key - 1)) ∧
       (∀ k, k ≠ key → k ≠ key - 1 → t.tab k = s.tab k) ∧ t.rd (b + 4) = BitVec.ofNat 32 (w + 1)) ∧
     (w < size → ((t_ = 5 ∨ t_ = 6) ∧ (s.rx n.val).acq.run = true) → Does (.tabDataAccess p n rx (some hi)) s fun t =>
       t.tabs = s.tabs ∧ t.tst (rfA n.val 0x4004) 4 = true ∧ Raises s t 15 0 (pathKind p).1 (pathKind p).2)))

/-- R207, R212, R216, R217, R220–R229: a decision point takes a stop request, then a jump request, then what the segment's entry
says; at a boundary the port stops, waits or begins a play, and an entry that is not VALID stops it with CFG; a marker that
comes to a level drives the pin, or the line, that it is routed to; a clipped sample counts. The model's choices it rests on:
logs 40 and 41. -/
def Obligations.TxPlays : Prop :=
  (∀ s (n : Fin 32),
    let x := s.tx n.val
    x.st = .playing → x.decided = none →
    let u := s.advanceTo (s.decideAt x / 15)
    let y := u.tx n.val
    let d := u.decideAt x
    let decides := fun (f : Follow) (z : TxPort) (t : State) => PortIs u t n.val { z with decided := some f }
    let noReq := (∀ p, y.stopReq = some p → d ≤ p) ∧ (∀ g p, y.req = some (g, p) → d ≤ p)
    (∀ p, y.stopReq = some p → p < d → Does (.playDecisionPoint n) s (decides .stop y)) ∧
    ((∀ p, y.stopReq = some p → d ≤ p) → ∀ g p, y.req = some (g, p) → p < d →
      Does (.playDecisionPoint n) s (decides (.seg g) { y with req := none })) ∧
    (noReq → segVj y.entry = 0 → Does (.playDecisionPoint n) s (decides
      (if y.plays < segRep y.entry then .again else if segEnd y.entry then .stop else .seg (segNext y.entry)) y))) ∧
  (∀ s (n : Fin 32) list env q, (s.tx n.val).st = .idle → (s.tx n.val).stopNow = none → (s.tx n.val).startAt = some q →
    let u := s.advanceTo (q / 15)
    let x := u.tx n.val
    let e := u.segEntry n.val x.seg.toNat
    x.st = .idle → x.startAt = some q → x.todo = [] →
    (segValid e = true → u.season ≠ 1 → x.stepStart = false → u.faultState = false → segWait e = false → segLoad e = 0 →
      Does (.segmentBoundary n .ok list env) s fun t =>
        t.tx n.val = { x with st := .playing, plays := 0, entry := e, playAt := q, gridAt := q, decided := none, startAt := none,
                              stepFault := false, slotStopped := false } ∧
        (∀ m, m ≠ n.val → t.tx m = u.tx m) ∧ { t with txs := u.txs } = u) ∧
    (segValid e = true → x.trig = none → (u.season = 1 ∨ x.stepStart = true ∨ segWait e = true) →
      Does (.segmentBoundary n .ok list env) s fun t => (t.tx n.val).st = .waiting ∧ (t.tx n.val).seg = x.seg ∧
        (t.tx n.val).startAt = none ∧ { t with txs := u.txs } = u) ∧
    (segValid e = false → Does (.segmentBoundary n .ok list env) s fun t => (t.tx n.val).st = .idle ∧ (t.tx n.val).startAt = none ∧
      t.tst (rfA n.val 0x004) 8 = true ∧ Raises u t 15 0 4 n.val) ∧
    Does (.segmentBoundary n .ue list env) s fun t => (t.tx n.val).st = .idle ∧ t.tst (rfA n.val 0x004) 8 = true ∧ Raises u t 1 2 4 n.val) ∧
  (∀ s (n : Fin 32) list f, (s.tx n.val).st = .playing → (s.tx n.val).decided = some f → (s.tx n.val).stopNow = none →
    let q := s.playEnd (s.tx n.val)
    let u := s.advanceTo (q / 15)
    let x := u.tx n.val
    x.st = .playing → x.decided = some f → x.todo = [] → u.season ≠ 1 → x.stepStart = false → u.faultState = false →
    let begins := fun (seg : BitVec 10) (plays : Nat) (t : State) => (t.tx n.val).st = .playing ∧ (t.tx n.val).seg = seg ∧
      (t.tx n.val).plays = plays ∧ (t.tx n.val).playAt = q ∧ (t.tx n.val).entry = u.segEntry n.val seg.toNat ∧
      (t.tx n.val).decided = none ∧ t.hbm = u.hbm ∧ ∀ m, m ≠ n.val → t.tx m = u.tx m
    (f = .stop → Does (.segmentBoundary n .ok list .ok) s fun t => (t.tx n.val).st = .idle ∧ (t.tx n.val).entry = [] ∧
      (t.tx n.val).req = none ∧ (t.tx n.val).stopReq = none ∧ t.hbm = u.hbm) ∧
    (f = .again → segValid (u.segEntry n.val x.seg.toNat) = true → Does (.segmentBoundary n .ok list .ok) s (begins x.seg (x.plays + 1))) ∧
    (∀ g, f = .seg g → segValid (u.segEntry n.val g.toNat) = true → segWait (u.segEntry n.val g.toNat) = false →
      Does (.segmentBoundary n .ok list .ok) s (begins g 0))) ∧
  (∀ s (n : Fin 32) ecc list p, (s.tx n.val).stopNow = some p → (s.tx n.val).st ≠ .muted →
    ((s.tx n.val).st = .playing → p ≤ s.playEnd (s.tx n.val)) → ((s.tx n.val).st ≠ .playing → ∀ q, (s.tx n.val).startAt = some q → p ≤ q) →
    Does (.segmentBoundary n ecc list .ok) s fun t => (t.tx n.val).st = .idle ∧ (t.tx n.val).stopNow = none ∧
      (t.tx n.val).startAt = none ∧ t.hbm = (s.advanceTo (p / 15)).hbm) ∧
  (∀ s (n : Fin 32) (m : Fin 4) level,
    let r := s.routeOf n.val m.val ((s.markAt n.val m.val level).getD (15 * s.now))
    let dest := r.toNat / 2 ^ 30
    let comes := (s.tx n.val).mark.getLsbD m.val ≠ level ∧ (s.markAt n.val m.val level).isSome = true
    (¬ comes → Does (.markerEdge n m level) s (· = s)) ∧
    (comes → Does (.markerEdge n m level) s fun t => t.tx n.val = { s.tx n.val with mark := setb (s.tx n.val).mark m.val level } ∧
      (∀ k, k ≠ n.val → t.tx k = s.tx k) ∧ { t with txs := s.txs, outbox := s.outbox, dec := s.dec } = s ∧
      (dest = 1 → t.outbox = s.outbox ++ [.markerPin (r.toNat % 2 ^ 10)
        ((s.setTx n.val { s.tx n.val with mark := setb (s.tx n.val).mark m.val level }).pinMarker (r.toNat % 2 ^ 10))]) ∧
      (dest ≠ 1 → t.outbox = s.outbox) ∧
      (dest < 2 ∨ r.getLsbD 25 = level → t.dec = s.dec) ∧
      (r.getLsbD 25 ≠ level → dest = 2 →
        ⟨s.slotNum (s.now + 8), false, r.toNat % 2 ^ 8, r.getLsbD 24⟩ ∈ t.dec.posts) ∧
      (r.getLsbD 25 ≠ level → dest = 3 → (s.role = 0 ∨ s.dec.nstate ≠ .detached) →
        ⟨s.slotNum (s.now + 8), true, r.toNat % 2 ^ 6, r.getLsbD 24⟩ ∈ t.dec.posts))) ∧
  (∀ s (n : Fin 32), Does (.txSampleClip n) s fun t => CountsUp s t (rfA n.val 0x010) ∧ t.tst (rfA n.val 0x004) 10 = true ∧
    OnlyRegs s t [rfA n.val 0x010, rfA n.val 0x004])

/-- R233–R241, R253, R254: the demodulation registers act from 8 ticks on; a window's result is the sum, rounded and clamped, and goes
to the lines and to the FIFO; the host reads and empties the FIFO where it is its own; NYQ changes only while nothing is open. -/
def Obligations.ReadoutCommands : Prop :=
  (∀ s p (n : Fin 32) (k : Fin 8) (v : Word),
    let o := fun r => 0x4040 + 16 * k.val + 4 * r
    let a := fun r => rfA n.val (o r)
    let before := fun (t : State) (f : State → Nat → Word64) => ∀ pos, 30 * s.now ≤ pos → pos < s.rxLater n.val → f t pos = f s pos
    (Reached s p (a 0) → Does (.demodWrite p n k 0 v) s fun t => t.heldLo p (a 0) = some v ∧ { t with held := s.held } = s) ∧
    (Reached s p (a 1) → Does (.demodWrite p n k 1 v) s fun t =>
      t.rd (a 0) = (s.heldLo p (a 0)).getD (s.rd (a 0)) ∧ t.rd (a 1) = v &&& 0xFFFF ∧ t.heldLo p (a 0) = none ∧
      RegsBut s t [a 0, a 1] ∧ before t (fun x pos => x.rxPair n.val (o 0) pos) ∧
      { t with bar := s.bar, held := s.held, rxs := s.rxs } = s) ∧
    (Reached s p (a 2) → Does (.demodWrite p n k 2 v) s fun t => t.rd (a 2) = v ∧ RegsBut s t [a 2] ∧
      before t (fun x pos => (x.rxReg n.val (o 2) pos).zeroExtend 64) ∧ { t with bar := s.bar, rxs := s.rxs } = s)) ∧
  (∀ s p (n : Fin 32) (k : Fin 8) (v : Word),
    let a := rfA n.val (0x404C + 16 * k.val)
    let len := v.toNat % 2 ^ 19 + 1
    Reached s p a →
    (16 ≤ len → len ≤ 4096 * 2 ^ (v.toNat / 2 ^ 28 % 8) → Does (.demodWinWrite p n k v) s fun t =>
      t.rd a = v &&& 0x7F07FFFF ∧ OnlyRegs s t [a]) ∧
    ((len < 16 ∨ 4096 * 2 ^ (v.toNat / 2 ^ 28 % 8) < len) → Does (.demodWinWrite p n k v) s (· = s.cfgErr p))) ∧
  (∀ s (n : Fin 32) (k : Fin 8) codes word w, (s.rx n.val).wins.find? (fun w => w.tone == k) = some w → w.len ≤ 2 ^ 19 →
    let u := s.advanceTo (w.endTick + 32)
    let x := u.rx n.val
    let acc := u.accum n.val w codes none
    let res := fun a : Int => max (-2 ^ 31) (min (2 ^ 31 - 1) ((a + 2 ^ (29 + w.rshift)) / 2 ^ (30 + w.rshift)))
    let line := if w.glob then w.line.toNat % 64 else w.line.toNat
    x.stream.lost = false → x.fifo.length < 256 → x.rres = [] → Does (.readoutResult n k codes word .ok) s fun t =>
      (t.rx n.val).wins = x.wins.erase w ∧ (∀ m, m ≠ n.val → t.rx m = u.rx m) ∧ t.engs = u.engs ∧ t.hbm = u.hbm ∧
      (w.fifo = false → (t.rx n.val).fifo = x.fifo) ∧
      (w.fifo = true → ∃ r : BitVec 256, (t.rx n.val).fifo = x.fifo ++ [r] ∧ fld r 252 4 = 4 ∧ fld r 249 3 = w.tone.val ∧
        fld r 224 16 = w.tag.toNat ∧ fld r 160 32 = (BitVec.ofInt 32 (res acc.1)).toNat ∧
        fld r 128 32 = (BitVec.ofInt 32 (res acc.2)).toNat ∧ fld r 64 19 = w.len - 1) ∧
      (w.post = false → t.dec = u.dec) ∧
      (w.post = true → w.glob = false → ∃ b, ⟨u.slotNum (w.endTick + 32), false, line, b⟩ ∈ t.dec.posts)) ∧
  (∀ s p (n : Fin 32), Reached s p (rfA n.val 0x4020) →
    (s.tst (rfA n.val 0x4008) 2 = true → (∀ r l, (s.rx n.val).fifo = r :: l → Does (.resDataRead p n) s fun t =>
        t.outbox = s.outbox ++ [.readData p (r.truncate 32)] ∧ (t.rx n.val).fifo = l ∧ t.resLatchOf p n.val = r ∧
        { t with outbox := s.outbox, rxs := s.rxs, resLatch := s.resLatch } = s) ∧
      ((s.rx n.val).fifo = [] → Does (.resDataRead p n) s fun t => t.outbox = s.outbox ++ [.readData p 0] ∧ t.rxs = s.rxs)) ∧
    (s.tst (rfA n.val 0x4008) 2 = false → Does (.resDataRead p n) s fun t => t = s.emit (.readData p 0))) ∧
  (∀ s p (n : Fin 32), Reached s p (rfA n.val 0x4000) → Does (.resFlush p n) s fun t => ∃ r : BitVec 256, (t.rx n.val).fifo = [r] ∧
    fld r 252 4 = 2 ∧ fld r 188 4 = 4 ∧ (t.rx n.val).stream.lost = false ∧ (∀ m, m ≠ n.val → t.rx m = s.rx m) ∧
    { t with rxs := s.rxs } = s) ∧
  (∀ s p (n : Fin 32) (v : Word),
    let a := rfA n.val 0x4008
    let change := v.getLsbD 0 ≠ s.tst a 0
    Reached s p a →
    (¬ change → (s.rx n.val).rres = [] → Does (.rxCfgWrite p n v) s fun t => t.rd a = v &&& 5 ∧ RegsBut s t [a] ∧ t.hbm = s.hbm ∧
      t.faults = s.faults ∧ ∀ m, m ≠ n.val → t.rx m = s.rx m) ∧
    (change → (s.winOpen n.val = true ∨ (v.getLsbD 0 = true ∧ s.season = 1)) → Does (.rxCfgWrite p n v) s (· = s.cfgErr p)) ∧
    (change → s.winOpen n.val = false → (s.acq n.val).run = false → s.season ≠ 1 → (s.rx n.val).rres = [] →
      Does (.rxCfgWrite p n v) s fun t => t.rd a = v &&& 5 ∧ RegsBut s t [a] ∧ t.faults = s.faults)) ∧
  (∀ s (n : Fin 32), Does (.rxAdcOverrange n) s fun t => CountsUp s t (rfA n.val 0x400C) ∧ t.tst (rfA n.val 0x4004) 3 = true ∧
    OnlyRegs s t [rfA n.val 0x400C, rfA n.val 0x4004])

/-- R242–R252: ARM, AQ_STOP, the ring and its size. In a stream of raw samples, one at a time: a unit whose edge comes fires once
and disarms, with its mark and the holdoff; the end of a holdoff arms again what awaited it; a sample outside the mask stops
the stream. The model's choices it rests on: log 43. -/
def Obligations.AcquisitionStream : Prop :=
  (∀ s p (n : Fin 32) units, Reached s p (rfA n.val 0x4000) → Does (.arm p n units) s fun t =>
    (∀ k < 4, (units.getLsbD k = true ∧ ((s.rx n.val).unit k).armed = false →
        ((t.rx n.val).unit k).armed = true ∧ ((t.rx n.val).unit k).from_ = s.rxLater n.val ∧ ((t.rx n.val).unit k).lvl = none ∧
        ((t.rx n.val).unit k).cfg = s.rd (rfA n.val (0x4300 + 16 * k))) ∧
      ((units.getLsbD k = false ∨ ((s.rx n.val).unit k).armed = true) → (t.rx n.val).unit k = (s.rx n.val).unit k)) ∧
    { t with rxs := s.rxs } = s ∧ (∀ m, m ≠ n.val → t.rx m = s.rx m)) ∧
  (∀ s p (n : Fin 32), Reached s p (rfA n.val 0x4000) →
    let a := s.acq n.val
    (a.run = false → Does (.aqStop p n) s (· = s)) ∧
    (a.run = true → Does (.aqStop p n) s fun t =>
      t.acq n.val = { a with stopAt := some (min (s.rxLater n.val) (a.stopAt.getD (s.rxLater n.val))) } ∧ { t with rxs := s.rxs } = s) ∧
    (a.run = true → a.stopAt = none → Does (.aqRingReset p n) s (· = s.cfgErr p)) ∧
    (a.run = false → a.q.q.length < 256 → Does (.aqRingReset p n) s fun t => t.rd (rfA n.val 0x428C) = 0 ∧ t.rd (rfA n.val 0x4290) = 0 ∧
      RegsBut s t [rfA n.val 0x428C, rfA n.val 0x4290] ∧ (t.acq n.val).q.lost = false ∧
      (∃ b ∈ (t.acq n.val).q.q, b.tick = s.now ∧ ∃ r f o, b.body = .beacon r f o) ∧ t.hbm = s.hbm)) ∧
  (∀ s p (n : Fin 32) (v : Word), Reached s p (rfA n.val 0x4288) →
    let a := s.acq n.val
    (a.run = false → v.toNat % 2 ^ 13 ≤ 4096 → Does (.aqSizeWrite p n v) s fun t => t.rd (rfA n.val 0x4288) = v &&& 0x80001FFF ∧
      OnlyRegs s t [rfA n.val 0x4288]) ∧
    ((a.run = true ∧ a.stopAt = none) ∨ (a.run = false ∧ 4096 < v.toNat % 2 ^ 13) → Does (.aqSizeWrite p n v) s (· = s.cfgErr p))) ∧
  (∀ s (n : Fin 32) (c : BitVec 12) e,
    let a := s.acq n.val
    let x := s.rx n.val
    let pos := a.start + a.step * a.inIdx
    let u := s.advanceTo (pos / 30)
    u.rx n.val = x → a.run = true → a.stopAt = none → a.demod = false → fld a.cfg 24 4 = 0 → a.codes = [] → e.ecc = .ok →
    (∀ k : Fin 4, a.holdEnd = none → (∀ j < 4, j ≠ k.val → (x.unit j).armed = false ∧ (x.unit j).awaiting = false) →
      let y := x.unit k.val
      y.armed = true → y.from_ ≤ pos → y.armIdx.isSome = true → fld y.cfg 28 4 = 0 → y.lvl = some false → y.level ≤ c.toInt →
      bit a.cfg 31 = false → bit a.cfg 23 = false → a.maskFrom = none → a.winEnd = none → a.pre < 2 ^ 16 →
      a.recent.length < 15 →
      Does (.triggerFire n [c] e) s fun t => ((t.rx n.val).unit k.val).armed = false ∧
        ((t.rx n.val).unit k.val).awaiting = bit y.cfg 27 ∧ (t.acq n.val).holdEnd = some (a.inIdx + a.hold) ∧
        (t.acq n.val).inIdx = a.inIdx + 1 ∧ (t.acq n.val).run = true ∧
        ∃ m ∈ (t.acq n.val).marks, m.sidx = a.inIdx ∧ fld m.bits 252 4 = 6 ∧ fld m.bits 248 4 = k.val) ∧
    (∀ h, a.holdEnd = some h → h < a.inIdx → (∀ j < 4, fld (x.unit j).cfg 31 1 = 0 ∧
        ((x.unit j).awaiting = true ∨ (x.unit j).armed = false)) → a.maskFrom = none →
      Does (.holdoffEnd n [c] e) s fun t => (t.acq n.val).holdEnd = none ∧ (t.acq n.val).run = true ∧
        (∀ j < 4, ((t.rx n.val).unit j).armed = (x.unit j).awaiting ∧ ((t.rx n.val).unit j).awaiting = false) ∧
        ((∃ j < 4, (x.unit j).awaiting = true) → CountsUp u t (rfA n.val 0x401C))) ∧
    (∀ m, (∀ j < 4, (x.unit j).armed = false ∧ (x.unit j).awaiting = false) → a.holdEnd = none → a.maskFrom = some m →
      let i := (a.inIdx - m) / 2 ^ fld a.cfg 20 3
      let w := s.tab ((n.val * 8 + 5) * 2 ^ 18 + i)
      i < 4096 → ((BitVec.ofNat 32 (fld w 32 32)).toInt < c.toInt ∨ c.toInt < (BitVec.ofNat 32 (fld w 0 32)).toInt) →
      a.marks = [] → a.q.q.length ≤ 250 → u.aqFull n.val = false →
      Does (.maskViolation n [c] e) s fun t => (t.acq n.val).run = false ∧ t.tst (rfA n.val 0x4004) 8 = true ∧
        ∃ b ∈ (t.acq n.val).q.q, ∃ bits : BitVec 256, b.body = .record bits ∧ fld bits 252 4 = 6 ∧ fld bits 248 4 = 5 ∧
          fld bits 128 16 = i)) ∧
  (∀ s (n : Fin 32),
    let q := (s.acq n.val).q
    let base := s.aqBase n.val
    let cnt := s.aqN n.val
    let w := (s.rd (rfA n.val 0x428C)).toNat
    let at_ := base + 32 * w
    ((s.acq n.val).run = false ∨ (s.acq n.val).stopAt = none) → cnt ≠ 0 → s.aqFull n.val = false → q.lost = false →
    (q.q = [] → Does (.acqRecordWrite n) s (· = s)) ∧
    (∀ x l b, q.q = x :: l → x.body = .record b →
      (s.aqHost n.val = true → Does (.acqRecordWrite n) s fun t => t.outbox = s.outbox ++ [.hostWrite at_ (bytesOf 32 b.toNat)] ∧
        t.hbm = s.hbm ∧ t.rd (rfA n.val 0x428C) = BitVec.ofNat 32 ((w + 1) % cnt) ∧ (t.acq n.val).q.q = l) ∧
      (s.aqHost n.val = false → at_ + 32 ≤ 2 ^ 36 → s.dom (4 + at_ / 2 ^ 34) = true → Does (.acqRecordWrite n) s fun t =>
        t.hbmGet at_ 32 = bytesOf 32 b.toNat ∧ (∀ a, (a < at_ ∨ at_ + 32 ≤ a) → t.hbmB a = s.hbmB a) ∧
        t.rd (rfA n.val 0x428C) = BitVec.ofNat 32 ((w + 1) % cnt) ∧ (t.acq n.val).q.q = l ∧ RegsBut s t [rfA n.val 0x428C])))

namespace Sys2Proof.Machine

/-- A frame of a type that port p takes as good: its CRC, a type its side may receive, and the SEQ that is due, at its tick
(R255–R258). -/
def GoodFrame (s : State) (p t : Nat) (f : BitVec 160) (tick : Nat) : Prop :=
  f.toNat / 2 ^ 157 = t ∧ f.toNat % 2 ^ 16 = (crc16 ((msbBits f).take 144)).toNat ∧
  (t = 0 ∨ t = 1 ∨ t = 6 ∨ t = 7 ∨ s.klRole p = 1) ∧ ((s.kl p).st = 2 ∨ (s.kl p).st = 3 ∨ (s.kl p).st = 4) ∧
  s.arrival p (some f) = (tick, BitVec.ofNat 5 (f.toNat / 2 ^ 152 % 32))

/-- What a good frame says of the peer (R255, R260, R264). -/
def heardFrom (x : Kl) (f : BitVec 160) (tick : Nat) : Kl :=
  { x with bad := 0, seq := some (BitVec.ofNat 5 (f.toNat / 2 ^ 152 % 32)), seqAt := tick, peerJoined := f.getLsbD 38,
           peerLevel := BitVec.ofNat 2 (f.toNat / 2 ^ 36 % 4), peerDepth := BitVec.ofNat 2 (f.toNat / 2 ^ 34 % 4),
           peerHold := f.getLsbD 33, peerEpoch := BitVec.ofNat 16 (f.toNat / 2 ^ 16 % 2 ^ 16) }

/-- The node detaches for its link's sake: NSTATE, and LINK at level 1 (R266, R274). -/
def LinkLost (u t : State) : Prop := t.dec.nstate = .detached ∧ Raises u t 6 1 6 u.upPort

/-- The frames that a step of a slot sends on some ports: what follows the outbox of before. -/
def Sends (u t : State) (l : List Out) : Prop := t.outbox = u.outbox ++ l

end Sys2Proof.Machine

/-- R255–R258, R261, R262, R264–R267, R270, R273, R274, R276: what the frames of each type do on a port of either side, and what a
failed frame does. The model's choices it rests on: log 61. -/
def Obligations.LinkFrames : Prop :=
  (∀ s (k : Fin 8) (f : BitVec 160), (s.kl k.val).st = 1 → f.toNat / 2 ^ 157 = 0 →
    (f.toNat % 2 ^ 16 = (crc16 ((msbBits f).take 144)).toNat →
      ((s.kl k.val).good < 63 → Does (.trainFrame k f) s fun t => t.kl k.val = { s.kl k.val with good := (s.kl k.val).good + 1 } ∧
        { t with kls := s.kls } = s) ∧
      (63 ≤ (s.kl k.val).good → Does (.trainFrame k f) s fun t => (t.kl k.val).st = 2 ∧ t.dec = s.dec ∧
        (s.tst (decA 0x084) 2 = true → Irq s t 163))) ∧
    (f.toNat % 2 ^ 16 ≠ (crc16 ((msbBits f).take 144)).toNat → Does (.trainFrame k f) s fun t =>
      t.kl k.val = { s.kl k.val with good := 0 } ∧ { t with kls := s.kls } = s)) ∧
  (∀ s (k : Fin 8) f tick ty, (ty = 0 ∨ ty = 1) → GoodFrame s k.val ty f tick →
    let u := s.advanceTo tick
    let x := u.kl k.val
    let runs := x.st = 4 ∧ u.dec.nstate = .joined ∧ f.getLsbD 38 = true
    u.klRole k.val ≠ 1 → Does (if ty = 0 then .trainFrame k f else .emptyFrame k f) s fun t =>
      t.kl k.val = heardFrom x f tick ∧ (∀ j, j ≠ k.val → t.kl j = u.kl j) ∧ { t with kls := u.kls, dec := u.dec } = u ∧
      (¬ runs → t.dec = u.dec) ∧
      (runs → t.dec.contrib = ⟨u.frameSlot k.val, k.val, if f.getLsbD 39 ∨ ty = 0 then none else
        some (BitVec.ofNat 64 (f.toNat / 2 ^ 88))⟩ :: u.dec.contrib.take 511 ∧ { t.dec with contrib := u.dec.contrib } = u.dec)) ∧
  (∀ s (k : Fin 8) f tick ty, GoodFrame s k.val ty f tick →
    let u := s.advanceTo tick
    let x := u.kl k.val
    let value : BitVec 48 := BitVec.ofNat 48 (f.toNat / 2 ^ 40)
    u.role = 2 → u.upPort = k.val → f.getLsbD 38 = true → x.st = 4 → u.dec.nstate = .joined →
    let heard := fun t : State => t.kl k.val = heardFrom x f tick ∧ (∀ j, j ≠ k.val → t.kl j = u.kl j) ∧ t.hbm = u.hbm ∧
      t.engs = u.engs ∧ ∃ r ∈ t.dec.down, r.bits = BitVec.ofNat 256 (f.toNat / 2 ^ 88 % 2 ^ 64) ∧ r.loss = f.getLsbD 39
    let keeps := fun t : State => heard t ∧ t.dec.nstate = .joined ∧ t.wtc = u.wtc ∧ t.faults = u.faults
    (ty = 1 → Does (.emptyFrame k f) s keeps) ∧
    (ty = 2 → (u.wtc = value + 40 → Does (.timeFrame k f) s keeps) ∧
      (u.wtc ≠ value + 40 → u.dec.resyncAt = none → Does (.timeFrame k f) s fun t => heard t ∧ t.tst (decA 0x004) 9 = true ∧
        LinkLost u t)) ∧
    (ty = 3 → (u.slotNum (u.now - (60 + 40 * u.depth + 40 * (f.toNat / 2 ^ 36 % 4 + 1))) = value →
        Does (.slotnumFrame k f) s keeps) ∧
      (u.slotNum (u.now - (60 + 40 * u.depth + 40 * (f.toNat / 2 ^ 36 % 4 + 1))) ≠ value →
        Does (.slotnumFrame k f) s fun t => heard t ∧ t.tst (decA 0x004) 9 = true ∧ LinkLost u t)) ∧
    (ty = 4 → Does (.resyncAtFrame k f) s fun t => keeps t ∧ t.dec.pairGot = some value ∧ t.armed = u.armed) ∧
    (ty = 5 → (∀ at_, u.dec.pairGot = some at_ → u.rdf (timeA 0x008) 0 2 = 1 → 0 < (at_ - u.wtc).toNat → (at_ - u.wtc).toNat < 2 ^ 47 →
        Does (.resyncLoadFrame k f) s fun t => keeps t ∧ t.dec.pairGot = none ∧
          t.armed = some ⟨at_, value, some (BitVec.ofNat 16 (f.toNat / 2 ^ 16))⟩ ∧
          t.dec.pairs = u.dec.pairs ++ [(at_, value, BitVec.ofNat 16 (f.toNat / 2 ^ 16))]) ∧
      (u.dec.pairGot = none → Does (.resyncLoadFrame k f) s fun t => keeps t ∧ t.armed = u.armed)) ∧
    (ty = 6 → (value.toNat / 2 ^ 47 = 1 ∨ value.toNat / 2 ^ 41 % 64 = u.nodeId) → u.dec.msgRx.length < 64 → u.rdf (decA 0x008) 16 8 = 0 →
      Does (.messageFrame k f) s fun t => keeps t ∧ t.dec.msgRx = u.dec.msgRx ++ [value]) ∧
    (ty = 6 → value.toNat / 2 ^ 47 = 0 → value.toNat / 2 ^ 41 % 64 ≠ u.nodeId → u.rdf (decA 0x008) 16 8 = 0 →
      Does (.messageFrame k f) s fun t => keeps t ∧ t.dec.msgRx = u.dec.msgRx)) ∧
  (∀ s (k : Fin 8) f tick ty, GoodFrame s k.val ty f tick →
    let u := s.advanceTo tick
    let x := u.kl k.val
    let value : BitVec 48 := BitVec.ofNat 48 (f.toNat / 2 ^ 40)
    u.role = 2 → u.upPort = k.val → f.getLsbD 38 = true → x.st = 4 → u.dec.nstate = .joining →
    f.toNat / 2 ^ 16 % 2 ^ 16 ≠ 0 → f.toNat / 2 ^ 36 % 4 < u.depth → f.toNat / 2 ^ 34 % 4 = u.depth → x.peerSig = u.cfgSig →
    let off := 60 + 40 * u.depth + 40 * (f.toNat / 2 ^ 36 % 4 + 1)
    (ty = 2 → u.dec.slotSeen = false → Does (.timeFrame k f) s fun t => t.wtc = value + 40 ∧
      t.epoch = BitVec.ofNat 16 (f.toNat / 2 ^ 16) ∧ t.dec.timeSeen = true ∧ t.dec.nstate = .joining) ∧
    (ty = 3 → off ≤ u.now → u.dec.timeSeen = true → Does (.slotnumFrame k f) s fun t => t.dec.nstate = .joined ∧
      t.dec.vsc = value ∧ t.dec.slotTick = u.now - off ∧ (t.kl k.val).phase = u.rdf (klA k.val 0x08) 0 16)) ∧
  (∀ s (k : Fin 8) f tick, GoodFrame s k.val 6 f tick →
    let u := s.advanceTo tick
    u.klRole k.val ≠ 1 → (u.kl k.val).st = 4 → (u.kl k.val).buf.length < 16 → Does (.messageFrame k f) s fun t =>
      (t.kl k.val).buf = (u.kl k.val).buf ++ [BitVec.ofNat 48 (f.toNat / 2 ^ 40)] ∧ t.dec.msgRx = u.dec.msgRx) ∧
  (∀ s (k : Fin 8) f flight tick, GoodFrame s k.val 7 f tick →
    let u := s.advanceTo tick
    let x := u.kl k.val
    (u.klRole k.val ≠ 1 → x.st = 4 → Does (.delayFrame k f flight) s fun t =>
      (t.kl k.val).echo = some (BitVec.ofNat 32 (f.toNat / 2 ^ 40)) ∧ (t.kl k.val).st = 4) ∧
    (u.klRole k.val = 1 → x.st = 3 → u.dec.nstate = .detached →
      (x.probes < 255 → Does (.delayFrame k f flight) s fun t => (t.kl k.val).probes = x.probes + 1 ∧ (t.kl k.val).st = 3 ∧
        t.bar = u.bar) ∧
      (255 ≤ x.probes → flight.toNat ≤ 40960 → Does (.delayFrame k f flight) s fun t => (t.kl k.val).st = 4 ∧
        t.rd (klA k.val 0x08) = flight.zeroExtend 32) ∧
      (255 ≤ x.probes → 40960 < flight.toNat → Does (.delayFrame k f flight) s fun t => (t.kl k.val).st = 5 ∧
        t.tst (klA k.val 0x00) 9 = true))) ∧
  (∀ s (k : Fin 8), ((s.kl k.val).st = 2 ∨ (s.kl k.val).st = 3 ∨ (s.kl k.val).st = 4) →
    let u := s.advanceTo (s.arrival k.val none).1
    let x := u.kl k.val
    u.klRole k.val ≠ 1 → Does (.failedFrame k) s fun t => CountsUp u t (klA k.val 0x04) ∧ Raises u t 6 1 6 k.val ∧ t.dec = u.dec ∧
      (x.bad < 15 → (t.kl k.val).bad = x.bad + 1 ∧ (t.kl k.val).st = x.st ∧ (t.kl k.val).peerHold = true) ∧
      (15 ≤ x.bad → x.st = 4 → (t.kl k.val).st = 1 ∧ t.tst (klA k.val 0x00) 8 = true)) ∧
  (∀ s (k : Fin 8), (s.kl k.val).st = 1 → Does (.failedFrame k) s fun t => t.kl k.val = { s.kl k.val with good := 0 } ∧
    { t with kls := s.kls } = s)

/-- R259–R265, R274, R276, R277: JOIN is taken, or refused with the lowest cause that stands; LEAVE, RECAL and RETRAIN; the ports
that DEC_CFG names train; the line registers, and the message queues at the host. The model's choices it rests on: logs 46 and
61. -/
def Obligations.JoiningAndLinkSettings : Prop :=
  (∀ s p, Reached s p (decA 0x000) →
    (s.dec.nstate ≠ .detached → Does (.join p) s (· = s)) ∧
    (s.dec.nstate = .detached → s.joinCause = 0 → Does (.join p) s fun t =>
      t.dec.nstate = (if s.role = 2 then .joining else .joined) ∧ t.faults = s.faults ∧ t.kls = s.kls) ∧
    (s.dec.nstate = .detached → s.joinCause ≠ 0 → s.joinCause < 16 → Does (.join p) s fun t => t.dec.nstate = .detached ∧
      t.tst (decA 0x004) 8 = true ∧ t.rdf (decA 0x004) 4 4 = s.joinCause ∧ RegsBut s t [decA 0x004] ∧
      Raises s t 15 0 (pathKind p).1 (pathKind p).2) ∧
    Does (.leave p) s (fun t => t.dec.nstate = .detached ∧ t.faults = s.faults ∧ t.kls = s.kls) ∧
    (s.joinCause ≠ 0 → Does (.recal p) s (· = s.cfgErr p)) ∧
    (s.joinCause = 0 → s.role = 2 → Does (.recal p) s fun t => (t.kl s.upPort).phase = s.rdf (klA s.upPort 0x08) 0 16 ∧
      t.rd (klA s.upPort 0x0C) = 0 ∧ RegsBut s t [klA s.upPort 0x0C] ∧ { t with kls := s.kls, bar := s.bar } = s) ∧
    (s.joinCause = 0 → s.role ≠ 2 → Does (.recal p) s (· = s)) ∧
    Does (.retrain p) s (fun t => t.dec = s.dec ∧ ∀ k < 8, ((s.kl k).st = 5 → t.kl k = { st := 1 }) ∧
      ((s.kl k).st ≠ 5 → t.kl k = s.kl k))) ∧
  (∀ s : State, ((∃ e < 96, (s.eng e).st ≠ .stopped) ∨ (∃ n < 32, (s.tx n).st ≠ .idle) → s.joinCause = 1) ∧
    ((∀ e < 96, (s.eng e).st = .stopped) → (∀ n < 32, (s.tx n).st = .idle) →
      (s.role = 1 → s.epoch = 0 → s.joinCause = 4) ∧
      (s.role = 1 → s.epoch ≠ 0 → s.nodeId ≠ 0 → s.joinCause = 8) ∧
      (s.role = 1 → s.epoch ≠ 0 → s.nodeId = 0 → s.joinCause = (if s.rdf (timeA 0x008) 0 2 = 0 then 0 else 9)) ∧
      (s.role = 2 → (s.kl s.upPort).st ≠ 4 → s.joinCause = 2) ∧
      (s.role = 2 → (s.kl s.upPort).st = 4 → (s.kl s.upPort).peerJoined = false → s.joinCause = 3))) ∧
  (∀ s (k : Fin 8), (s.kl k.val).st = 2 → Does (.alignDone k) s fun t => (t.kl k.val).st = (if s.klRole k.val = 1 then 3 else 4) ∧
    (∀ j, j ≠ k.val → t.kl j = s.kl j) ∧ t.dec = s.dec ∧ t.faults = s.faults) ∧
  (∀ s p (v : Word), Reached s p (decA 0x008) →
    (s.dec.nstate = .detached → Does (.decCfgWrite p v) s fun t => t.rd (decA 0x008) = v &&& 0xF7FF003F ∧ t.dec = s.dec ∧
      ∀ k < 8, (t.kl k).st = (if t.klRole k = 0 ∨ s.dom 3 = false then 0 else if (s.kl k).st = 0 then 1 else (s.kl k).st)) ∧
    (s.dec.nstate ≠ .detached → v.getLsbD 0 ≠ s.tst (decA 0x008) 0 → Does (.decCfgWrite p v) s (· = s.cfgErr p))) ∧
  (∀ s p (r : Fin 16) v, Reached s p (decA (0x020 + 4 * r.val)) →
    ((∀ e < 96, (s.eng e).st = .stopped) → Does (.decLvOpWrite p r v) s fun t => t.rd (decA (0x020 + 4 * r.val)) = v ∧
      OnlyRegs s t [decA (0x020 + 4 * r.val)]) ∧
    ((∃ e < 96, (s.eng e).st ≠ .stopped) → Does (.decLvOpWrite p r v) s (· = s.cfgErr p))) ∧
  (∀ s p (v : Word), Reached s p (decA 0x094) →
    let data := (s.heldLo p (decA 0x090)).getD (s.rd (decA 0x090))
    let m := v.toNat / 2 ^ 11 % 2 * 2 ^ 47 + v.toNat % 64 * 2 ^ 41 + s.nodeId * 2 ^ 35 + v.toNat / 2 ^ 8 % 8 * 2 ^ 32 + data.toNat
    (s.dec.msgTx.length < 16 → Does (.msgTx p v) s fun t => t.dec = { s.dec with msgTx := s.dec.msgTx ++ [BitVec.ofNat 48 m] } ∧
      t.faults = s.faults ∧ RegsBut s t [decA 0x090, decA 0x094]) ∧
    (16 ≤ s.dec.msgTx.length → Does (.msgTx p v) s fun t => t.dec = s.dec ∧ t.tst (decA 0x0A0) 0 = true ∧
      Raises s t 14 0 (pathKind p).1 (pathKind p).2)) ∧
  (∀ s p, Reached s p (decA 0x098) →
    (s.dec.msgRx = [] → Does (.msgRxRead p) s fun t => t.outbox = s.outbox ++ [.readData p 0] ∧ t.getLatch p = 0 ∧ t.dec = s.dec) ∧
    (∀ m l, s.dec.msgRx = m :: l → Does (.msgRxRead p) s fun t => t.outbox = s.outbox ++ [.readData p (m.truncate 32)] ∧
      t.dec = { s.dec with msgRx := l } ∧ t.getLatch p = BitVec.ofNat 32 (2 ^ 31 + m.toNat / 2 ^ 35 % 64 * 2 ^ 12 +
        m.toNat / 2 ^ 47 * 2 ^ 11 + m.toNat / 2 ^ 32 % 8 * 2 ^ 8 + m.toNat / 2 ^ 41 % 64) ∧ t.bar = s.bar))

/-- R258, R268, R270–R273: the steps of the next verdict slot, each at its offset from the slot's opening: the reduction of the
module's posts, line by line OR or AND; the results become visible to the engines that wait; the frames go upward and downward
with the slot's SEQ; a lost slot is delivered as such and counts. The model's choices it rests on: logs 46 and 62. -/
def Obligations.VerdictSlotSteps : Prop :=
  ∀ s, s.tst (timeA 0x004) 0 = true → s.dom 23 = true →
    let at_ := fun id off => s.advanceTo (s.dec.slotTick + 10 * s.nextSlot id off + off)
    let slot := fun id off => s.dec.vsc + BitVec.ofNat 48 (s.nextSlot id off)
    let taken := fun (id off : Nat) (t : State) => tget (fun _ => 0) t.dec.doneK id = s.nextSlot id off + 1
    let wakes := fun (u t : State) => (∀ e < 96, ∀ v rd b loss, (u.eng e).st = .running → (u.eng e).wait = .verdict v rd →
        t.readVref v = .value b loss → (t.eng e).wait = .none ∧ (rd ≠ 0 → (t.eng e).reg rd = BitVec.ofNat 64 b.toNat)) ∧
      (∀ e < 96, (∀ v rd, (u.eng e).wait ≠ .verdict v rd) → t.eng e = u.eng e) ∧ t.hbm = u.hbm
    Does .verdictSlotOpen s (fun t => taken 0 0 t ∧ { t.dec with doneK := [] } = { (at_ 0 0).dec with doneK := [] } ∧
      { t with dec := (at_ 0 0).dec } = at_ 0 0) ∧
    Does .slotReduce s (fun t =>
      let u := at_ 1 20
      let n := slot 1 20
      let posts := fun l v => ∃ q ∈ u.dec.posts, q.slot = n ∧ q.glob = false ∧ q.line = l ∧ q.val = v
      taken 1 20 t ∧ { t with dec := u.dec } = u ∧ ∃ r rest, t.dec.local_ = r :: rest ∧ r.slot = n ∧
        ((∀ q ∈ u.dec.local_, q.slot ≠ n) → ∀ l < 256, (u.lvOp.getLsbD l = true → (r.bits.getLsbD l = true ↔ ¬ posts l false)) ∧
          (u.lvOp.getLsbD l = false → (r.bits.getLsbD l = true ↔ posts l true)))) ∧
    Does .localResultVisible s (fun t => taken 2 Config.dLocal t ∧ wakes (at_ 2 Config.dLocal) t) ∧
    (let off := 20 + 40 * (s.depth - s.level)
     let u := at_ 3 off
     let n := slot 3 off
     let p := u.upPort
     let x := u.kl p
     let sent := fun (ty : Nat) (pl : BitVec 48) (t : State) => ∃ f : BitVec 160, Sends u t [.frame p f] ∧ f.toNat / 2 ^ 157 = ty ∧
       BitVec.ofNat 5 (f.toNat / 2 ^ 152 % 32) = n.truncate 5 ∧ BitVec.ofNat 48 (f.toNat / 2 ^ 40) = pl ∧
       f.toNat % 2 ^ 16 = (crc16 ((msbBits f).take 144)).toNat ∧ (f.getLsbD 38 = true ↔ u.dec.nstate = .joined) ∧
       (ty ≠ 0 → BitVec.ofNat 64 (f.toNat / 2 ^ 88) = (u.subtree n).1)
     (u.role ≠ 2 → Does .upwardFrameLaunch s fun t => taken 3 off t ∧ { t with dec := u.dec } = u) ∧
     (u.role = 2 → (x.st = 1 → Does .upwardFrameLaunch s (sent 0 0)) ∧ (x.st = 2 → Does .upwardFrameLaunch s (sent 1 0)) ∧
       (x.st = 3 → Does .upwardFrameLaunch s (sent 7 (BitVec.ofNat 48 x.probes))) ∧
       (x.st = 4 → x.peerHold = false → u.dec.nstate = .joined → ∀ m l, u.dec.msgTx = m :: l → Does .upwardFrameLaunch s fun t =>
         sent 6 m t ∧ t.dec.msgTx = l) ∧
       (x.st = 4 → x.peerHold = true → Does .upwardFrameLaunch s fun t => sent 1 0 t ∧ t.dec.msgTx = u.dec.msgTx))) ∧
    (let off := 60 + 40 * s.depth + 40 * s.level
     let u := at_ 4 off
     let n := slot 4 off
     (u.role ≠ 1 → u.role ≠ 2 → Does .downwardFrameLaunch s fun t => taken 4 off t ∧ { t with dec := u.dec } = u) ∧
     (u.role = 1 → u.dec.pairNext = none → u.dec.pairs = [] → (n.toNat % 32 = 0 ∨ n.toNat % 32 = 16) → Does .downwardFrameLaunch s fun t =>
       ∃ l, Sends u t l ∧ ∀ p < 8, u.klRole p = 2 → ((u.kl p).st = 2 ∨ (u.kl p).st = 4) → ∃ f : BitVec 160, .frame p f ∈ l ∧
         f.toNat / 2 ^ 157 = (if n.toNat % 32 = 0 then 2 else 3) ∧
         BitVec.ofNat 48 (f.toNat / 2 ^ 40) = (if n.toNat % 32 = 0 then u.wtc else n) ∧
         BitVec.ofNat 5 (f.toNat / 2 ^ 152 % 32) = n.truncate 5 ∧
         BitVec.ofNat 64 (f.toNat / 2 ^ 88) = (u.globalBits n).1 ∧ f.getLsbD 39 = (u.globalBits n).2 ∧
         f.toNat % 2 ^ 16 = (crc16 ((msbBits f).take 144)).toNat) ∧
     (u.role = 1 → u.dec.pairNext = none → ∀ at1 l1 e1 more, u.dec.pairs = (at1, l1, e1) :: more → Does .downwardFrameLaunch s fun t =>
       t.dec.pairNext = some (l1, e1) ∧ t.dec.pairs = more ∧
       ∃ l, Sends u t l ∧ ∀ p < 8, u.klRole p = 2 → ((u.kl p).st = 2 ∨ (u.kl p).st = 4) → ∃ f : BitVec 160, .frame p f ∈ l ∧
         f.toNat / 2 ^ 157 = 4 ∧ BitVec.ofNat 48 (f.toNat / 2 ^ 40) = at1)) ∧
    (let u := at_ 5 s.dGlobal
     let n := slot 5 s.dGlobal
     let g := u.globalBits n
     Does .globalResultVisible s fun t => taken 5 s.dGlobal t ∧ wakes u t ∧
       (∃ rest, t.dec.glob = ⟨n, BitVec.ofNat 256 g.1.toNat, g.2⟩ :: rest) ∧ (g.2 = true → CountsUp u t (decA 0x080)) ∧
       (g.2 = false → t.rd (decA 0x080) = u.rd (decA 0x080)))

namespace Sys2Proof.Machine

/-- The key under which a source's settling time is kept. -/
def lvlKey : Source → Nat
  | .ppmu n l => 16 * n.val + l.val
  | .smu n => 1024 + n.val

/-- A change of lane l begins the 6,400 ticks of its stand-in again (R172). -/
def StandInFollows (s t : State) (n l : Nat) (changed : Prop) : Prop :=
  (∀ k, k ≠ n → t.pe k = s.pe k) ∧ { t.pe n with siDue := (s.pe n).siDue } = s.pe n ∧
  ((changed ∧ (s.siState n = 1 ∨ s.siState n = 4) ∧ s.siLane n = l) → (t.pe n).siDue = s.now + 6400) ∧
  (¬ (changed ∧ (s.siState n = 1 ∨ s.siState n = 4) ∧ s.siLane n = l) → (t.pe n).siDue = (s.pe n).siDue)

/-- Request w is served before request v (R292). -/
def Sooner (w v : MWait) : Prop :=
  w.cls < v.cls ∨ (w.cls = 1 ∧ v.cls = 1 ∧ (w.due < v.due ∨
    (w.due = v.due ∧ w.req.entry?.getD 0 < v.req.entry?.getD 0)))

/-- A field of a sequence entry of the MADC (R293). -/
def entryField (v : Word64) (lo len : Nat) : Nat := v.toNat / 2 ^ lo % 2 ^ len

/-- An entry that breaks no rule of its fields (R293). -/
def EntryGood (v : Word64) : Prop :=
  let f := entryField v
  f 61 2 ≠ 3 ∧ f 43 2 ≠ 3 ∧ f 40 3 = 0 ∧ f 36 4 ≤ 8 ∧ f 32 4 ≤ 8 ∧ f 24 8 ≤ 5 ∧ f 16 4 ≤ 8 ∧ f 2 14 = 0 ∧ f 0 2 ≠ 3 ∧
  (f 0 2 = 0 ∨ f 24 8 = 2 ∨ f 24 8 = 5)

/-- Every enabled entry with a START code is started: it is due after its DELAY (R295). -/
def EntriesStarted (u t : State) (n code : Nat) : Prop :=
  let fresh := fun w => ∃ e : Fin 32, entryField (u.rd64 (pbA n (0x1100 + 8 * e.val))) 61 2 = code ∧
    (u.rd64 (pbA n (0x1100 + 8 * e.val))).getLsbD 63 = true ∧
    w = (⟨.entry e none, 1, u.now + entryField (u.rd64 (pbA n (0x1100 + 8 * e.val))) 45 16⟩ : MWait)
  ∃ l, (t.madc n).delayed = (u.madc n).delayed ++ l ∧ ∀ w, w ∈ l ↔ fresh w

/-- A result goes to its tag, and to no engine where the request has none (R296). -/
def TagTakes (u t : State) (n : Nat) (tag : Option Nat) (v : Word64) : Prop :=
  (∀ k, tag = some k → t.eng n = (u.eng n).done k v ∧ ∀ e, e ≠ n → t.eng e = u.eng e) ∧ (tag = none → t.engs = u.engs)

/-- The result word of a TDC (R306). -/
def tdcWord (x : Tdc) (cancel timeout uncal late : Bool) (interval : Nat) : Word64 :=
  BitVec.ofNat 64 (cancel.toNat * 2 ^ 62 + timeout.toNat * 2 ^ 61 + x.started.toNat * 2 ^ 60 + x.refCold.toNat * 2 ^ 59 +
    uncal.toNat * 2 ^ 58 + late.toNat * 2 ^ 57 + (x.cfg.getLsbD 31).toNat * 2 ^ 56 + interval % 2 ^ 50)

/-- What an armed TDC takes from its registers (R303, R305, R307). -/
def tdcArmed (s : State) (n t : Nat) : Tdc :=
  let tmo := (s.rd64 (tdcA n t 0x20)).toNat % 2 ^ 40
  { st := .armed, cfg := s.rd (tdcA n t 0x08), nm1 := s.rdf (tdcA n t 0x0C) 0 16,
    smatch := (s.rd64 (tdcA n t 0x10)).truncate 48, pmatch := (s.rd64 (tdcA n t 0x18)).truncate 48,
    tmo := if tmo = 0 then 2 ^ 40 else tmo, armAt := s.now, refCold := !s.seas.refWarm }

/-- TDC t of bank n alone has changed among the TDCs, and holds x. -/
def TdcIs (u t : State) (k : Nat) (x : Tdc) : Prop := t.tdc k = x ∧ ∀ j, j ≠ k → t.tdc j = u.tdc j

end Sys2Proof.Machine

/-- R172, R279, R281–R285, R287–R289, R291, R299, R452: the host's writes of level codes, ranges, enables and PPMUs; the steps of
a range change; LVLCLR; supervision; a settling time's end, a clamp and a sense fault. The model's choices it rests on: logs
67 and 72. -/
def Obligations.LevelsOfTheHost : Prop :=
  (∀ s p (n : Fin 64) (l : Fin 16) (d : Fin 9) (v : Word),
    let a := pbA n.val (0x400 + 64 * l.val + 4 * d.val)
    let k := 16 * n.val + l.val
    let code := (v.truncate 16 : BitVec 16).zeroExtend 32
    let changed := s.rd a ≠ code
    Reached s p a → Does (.lvlCodeWrite p n l d v) s fun t => t.rd a = code ∧ RegsBut s t [a] ∧
      StandInFollows s t n.val l.val changed ∧
      t.settleAt k = (if changed ∧ d = 8 then s.now + ppmuTicks (s.rdf (pbA n.val (0x840 + 4 * l.val)) 8 3) else s.settleAt k) ∧
      tget (fun _ => 0) (t.lane k).written d.val = s.now + 1 ∧
      (∀ j, j ≠ k → t.lane j = s.lane j ∧ t.settleAt j = s.settleAt j) ∧ { t.lane k with written := (s.lane k).written } = s.lane k ∧
      { t with bar := s.bar, lanes := s.lanes, settle := s.settle, pes := s.pes } = s) ∧
  (∀ s p (n : Fin 64) (l : Fin 16) (v : Word) i, (i = .rangeWrite p n l v ∨ i = .lvlEnWrite p n l v) →
    let a := pbA n.val (0x800 + 4 * l.val)
    let k := 16 * n.val + l.val
    Reached s p a →
      (s.tst a 16 = v.getLsbD 16 → Does i s fun t => t.tst a 0 = v.getLsbD 0 ∧ t.tst a 16 = s.tst a 16 ∧ OnlyRegs s t [a]) ∧
      (s.tst a 16 ≠ v.getLsbD 16 → s.tst a 17 = true → Does i s (· = s.cfgErr p)) ∧
      (s.tst a 16 ≠ v.getLsbD 16 → s.tst a 17 = false → Does i s fun t => t.tst a 0 = v.getLsbD 0 ∧ t.tst a 16 = v.getLsbD 16 ∧
        t.tst a 17 = true ∧ t.lane k = { s.lane k with step := 1, t0 := s.now } ∧ (∀ j, j ≠ k → t.lane j = s.lane j) ∧
        StandInFollows s t n.val l.val True ∧ RegsBut s t [a] ∧ { t with bar := s.bar, lanes := s.lanes, pes := s.pes } = s)) ∧
  (∀ s (n : Fin 64) (l : Fin 16),
    let k := 16 * n.val + l.val
    let a := pbA n.val (0x800 + 4 * l.val)
    let at_ := fun d => s.advanceTo ((s.lane k).t0 + d)
    ((s.lane k).step = 1 → Does (.rangeSwitch n l) s fun t => t.lane k = { (at_ 960).lane k with step := 2 } ∧
      { t with lanes := (at_ 960).lanes } = at_ 960) ∧
    ((s.lane k).step = 2 → Does (.rangeCodesApply n l) s fun t => t.lane k = { (at_ 1920).lane k with step := 3 } ∧
      { t with lanes := (at_ 1920).lanes } = at_ 1920) ∧
    ((s.lane k).step = 3 → Does (.rangeReconnect n l) s fun t => t.lane k = { (at_ 3200).lane k with step := 0 } ∧
      t.tst a 17 = false ∧ t.tst a 16 = (at_ 3200).tst a 16 ∧ RegsBut (at_ 3200) t [a] ∧
      { t with bar := (at_ 3200).bar, lanes := (at_ 3200).lanes } = at_ 3200)) ∧
  (∀ s : State, Does .lvlclrAssert s (· = { s with seas := { s.seas with lvlclr := true } }) ∧
    Does .lvlclrRelease s (· = { s with seas := { s.seas with lvlclr := false } })) ∧
  (∀ (s : State) (n : Fin 64) (l : Fin 16) (d : Fin 9) (m1 m2 : BitVec 16),
    let c := s.rdf (pbA n.val (0x400 + 64 * l.val + 4 * d.val)) 0 16
    let w := tget (fun _ => 0) (s.lane (16 * n.val + l.val)).written d.val
    let far := fun m : BitVec 16 => s.rdf (pbA n.val 0x880) 0 16 < ((c : Int) - (m.toNat : Int)).natAbs
    let watched := s.tst (pbA n.val 0x880) 31 = true ∧ s.tst (pbA n.val (0x800 + 4 * l.val)) 0 = true ∧
      s.tst (pbA n.val (0x800 + 4 * l.val)) 17 = false ∧ s.seas.lvlclr = false ∧ s.dom 21 = true ∧
      (w = 0 ∨ w + 1599 ≤ s.now) ∧ (s.madc n.val).conv = none ∧ (s.madc n.val).waiting = []
    (watched ∧ far m1 ∧ far m2 → Does (.supervisionCheck n l d m1 m2) s fun t =>
      t.faults = faultInsert ⟨7, 2, 3, n.val, l.val + 16 * d.val, s.full, s.now⟩ s.faults ∧ t.tst (pbA n.val 0x888) 31 = true ∧
      t.rdf (pbA n.val 0x888) 4 4 = l.val ∧ t.rdf (pbA n.val 0x888) 0 4 = d.val ∧
      t.rd (pbA n.val 0x88C) = BitVec.ofNat 32 (c * 2 ^ 16 + m2.toNat) ∧ CountsUp s t (pbA n.val 0x890) ∧
      RegsBut s t [pbA n.val 0x888, pbA n.val 0x88C, pbA n.val 0x890] ∧ { t with bar := s.bar, faults := s.faults } = s) ∧
    (¬ (watched ∧ far m1 ∧ far m2) → Does (.supervisionCheck n l d m1 m2) s (· = s))) ∧
  (∀ s p (n : Fin 64) (l : Fin 16) (v : Word),
    let a := pbA n.val (0x840 + 4 * l.val)
    let k := 16 * n.val + l.val
    let mode := v.toNat / 16 % 8
    let range := v.toNat / 256 % 8
    Reached s p a →
      ((4 < mode ∨ 4 < range) → Does (.ppmuWrite p n l v) s (· = s.cfgErr p)) ∧
      (mode ≤ 4 → range ≤ 4 → Does (.ppmuWrite p n l v) s fun t => t.rdf a 4 3 = mode ∧ t.rdf a 8 3 = range ∧
        (mode = 0 → t.tst a 17 = false) ∧ RegsBut s t [a] ∧
        t.settleAt k = (if s.rdf a 4 3 = mode ∧ s.rdf a 8 3 = range then s.settleAt k else s.now + ppmuTicks range) ∧
        (∀ j, j ≠ k → t.settleAt j = s.settleAt j) ∧ { t with bar := s.bar, lanes := s.lanes, settle := s.settle } = s)) ∧
  (∀ s src,
    let k := lvlKey src
    let u := s.advanceTo (s.settleAt k)
    (s.settleAt k ≠ 0 → Does (.settlingEnd src) s fun t => t.settleAt k = 0 ∧ (∀ j, j ≠ k → t.settleAt j = u.settleAt j) ∧
      { t with settle := u.settle } = u) ∧
    (s.settleAt k = 0 → Does (.settlingEnd src) s (· = s))) ∧
  (∀ s on, (∀ (n : Fin 64) (l : Fin 16), let a := pbA n.val (0x840 + 4 * l.val)
      Does (.clampChange (.ppmu n l) on) s fun t => (t.tst a 17 = true ↔ on = true ∧ s.rdf a 4 3 ≠ 0) ∧ OnlyRegs s t [a]) ∧
    (∀ n : Fin 64, let a := pbA n.val 0xC0C
      Does (.clampChange (.smu n) on) s fun t => (t.tst a 1 = true ↔ on = true ∧ s.tst a 0 = true) ∧ OnlyRegs s t [a])) ∧
  (∀ s (n : Fin 64),
    let a := pbA n.val 0xC0C
    let x := s.smu n.val
    let ramp := if x.mode = 1 then (x.force.natAbs * 1600 + 499999) / 500000 else (x.force.natAbs * 16000 + (2 ^ 20 - 1)) / 2 ^ 20
    ((s.tst (pbA n.val 0xC00) 0 = true ∨ s.tst a 0 = false) → Does (.senseFault n) s (· = s)) ∧
    (s.tst (pbA n.val 0xC00) 0 = false → s.tst a 0 = true → Does (.senseFault n) s fun t => t.tst a 2 = true ∧ t.tst a 4 = true ∧
      Raises s t 8 2 3 n.val ∧ (s.tst a 4 = false → t.smu n.val = { x with rampEnd := s.now + ramp }) ∧
      (s.tst a 4 = true → t.smus = s.smus) ∧ RegsBut s t [a] ∧
      { t with bar := s.bar, faults := s.faults, smus := s.smus } = s))

/-- R292–R298: the MADC of a bank: its timer and its entries' starts, the request it serves next, the result word it writes, and
the host's commands and reads. The model's choices it rests on: log 67. -/
def Obligations.MeasurementAdc : Prop :=
  (∀ s p (n : Fin 64), Reached s p (pbA n.val 0x1000) →
    (∀ on, Does (.run p n on) s fun t => t.tst (pbA n.val 0x1000) 0 = on ∧ RegsBut s t [pbA n.val 0x1000] ∧
      t.madc n.val = (if on = true ∧ s.tst (pbA n.val 0x1000) 0 = false then { s.madc n.val with timerAt := s.now }
        else s.madc n.val) ∧ { t with bar := s.bar, madcs := s.madcs } = s) ∧
    (∀ e : Fin 32, let v := s.rd64 (pbA n.val (0x1100 + 8 * e.val))
      Does (.kick p n e) s fun t => t.rdf (pbA n.val 0x1000) 8 5 = e.val ∧ RegsBut s t [pbA n.val 0x1000] ∧
        t.madc n.val = (if v.getLsbD 63 then { s.madc n.val with
            delayed := (s.madc n.val).delayed ++ [⟨.entry e none, 2, s.now + entryField v 45 16⟩] } else s.madc n.val) ∧
        { t with bar := s.bar, madcs := s.madcs } = s)) ∧
  (∀ s (n : Fin 64),
    let per := (s.rd (pbA n.val 0x1008)).toNat
    let u := s.advanceTo ((s.madc n.val).timerAt + per)
    let due := s.tst (pbA n.val 0x1000) 0 = true ∧ per ≠ 0 ∧ s.dom 21 = true
    (due → Does (.madcTimerEvent n) s fun t => EntriesStarted u t n.val 1 ∧
      (t.madc n.val).timerAt = (u.madc n.val).timerAt + per ∧ (t.madc n.val).waiting = (u.madc n.val).waiting ∧
      (t.madc n.val).conv = (u.madc n.val).conv ∧ { t with madcs := u.madcs } = u) ∧
    (¬ due → Does (.madcTimerEvent n) s (· = s))) ∧
  (∀ s (n : Fin 64) (e : Fin 32),
    let w? := (s.madc n.val).delayed.find? fun w => w.req.entry? = some e.val
    (w? = none → Does (.madcEntryDue n e) s (· = s)) ∧
    (∀ w, w? = some w →
      let u := s.advanceTo w.due
      let m := u.madc n.val
      let here := (∃ v ∈ m.waiting, v.req.entry? = some e.val) ∨ ∃ c, m.conv = some c ∧ c.req.entry? = some e.val
      (here → Does (.madcEntryDue n e) s fun t => t.madc n.val = { m with delayed := m.delayed.erase w } ∧
        CountsUp u t (pbA n.val 0x101C) ∧ TagTakes u t n.val w.req.tag (BitVec.ofNat 64 (2 ^ 63 + e.val * 2 ^ 53)) ∧
        RegsBut u t [pbA n.val 0x101C, pbA n.val 0x1004]) ∧
      (¬ here → Does (.madcEntryDue n e) s fun t =>
        t.madc n.val = { m with delayed := m.delayed.erase w, waiting := m.waiting ++ [w] } ∧
        (t.unit (1216 + n.val)).running = false ∧ { t with madcs := u.madcs, units := u.units } = u))) ∧
  (∀ s (n : Fin 64) settles,
    let m := s.madc n.val
    ((m.conv ≠ none ∨ m.waiting = [] ∨ s.dom 21 = false) → Does (.madcConversionStart n settles) s (· = s)) ∧
    (∀ before w after, m.conv = none → s.dom 21 = true → m.waiting = before ++ w :: after → (∀ v ∈ before, Sooner w v) →
      (∀ v ∈ after, ¬ Sooner v w) → Does (.madcConversionStart n settles) s fun t =>
      (∃ c : MConv, t.madc n.val = { m with conv := some c, waiting := before ++ after, lastRef := c.ref } ∧ c.req = w.req ∧
        c.finish = s.now + 1600 * 2 ^ c.avg ∧ c.refNs = !settles ∧
        (∀ e g, w.req = .entry e g → let v := s.rd64 (pbA n.val (0x1100 + 8 * e.val))
          c.avg = entryField v 36 4 ∧ c.shift = entryField v 32 4 ∧ c.ref.toNat = entryField v 43 2 ∧
          (entryField v 24 8 ≤ 1 → (c.settling = true ↔ s.now < s.settleAt (16 * n.val + entryField v 20 4))) ∧
          ((entryField v 24 8 = 2 ∨ entryField v 24 8 = 3) → (c.settling = true ↔ s.now < s.settleAt (1024 + n.val))) ∧
          (3 < entryField v 24 8 → c.settling = false)) ∧
        ((∀ e g, w.req ≠ .entry e g) → c.avg = s.rdf (pbA n.val 0x1010) 4 4 ∧ c.shift = s.rdf (pbA n.val 0x1010) 0 4 ∧
          c.ref.toNat = s.rdf (pbA n.val 0x1010) 11 2) ∧
        (∀ l cur k, w.req = .ppmu l cur k → (c.settling = true ↔ s.now < s.settleAt (16 * n.val + l.val))) ∧
        (∀ cur k, w.req = .smu cur k → (c.settling = true ↔ s.now < s.settleAt (1024 + n.val)))) ∧
      t.tst (pbA n.val 0x1004) 2 = settles ∧ (settles = false → Raises s t 11 0 3 n.val) ∧ (settles = true → t.faults = s.faults) ∧
      ((∃ e g, w.req = .entry e g) ∧ w.due < s.now → CountsUp s t (pbA n.val 0x1020)) ∧
      (¬ ((∃ e g, w.req = .entry e g) ∧ w.due < s.now) → t.rd (pbA n.val 0x1020) = s.rd (pbA n.val 0x1020)) ∧
      RegsBut s t [pbA n.val 0x1004, pbA n.val 0x1020] ∧
      { t with bar := s.bar, madcs := s.madcs, faults := s.faults } = s)) ∧
  (∀ s (n : Fin 64) (samples : List (BitVec 18)) clamped openWire,
    ((s.madc n.val).conv = none → Does (.madcResult n samples clamped openWire) s (· = s)) ∧
    (∀ c, (s.madc n.val).conv = some c →
      let u := s.advanceTo c.finish
      let value : Int := (samples.map BitVec.toInt).sum / 2 ^ c.shift
      let rng := decide (∃ x ∈ samples, x.toInt = -131072 ∨ x.toInt = 131071)
      let flags := rng.toNat * 8 + c.settling.toNat * 4 + c.refNs.toNat * 2 + clamped.toNat
      let word := fun (op : Bool) (e : Nat) => BitVec.ofNat 64 (flags * 2 ^ 59 + op.toNat * 2 ^ 58 + e * 2 ^ 53 +
        (BitVec.ofInt 32 value).toNat)
      ((∀ e g, c.req ≠ .entry e g) → Does (.madcResult n samples clamped openWire) s fun t => (t.madc n.val).conv = none ∧
        TagTakes u t n.val c.req.tag (word false 0) ∧ { t with madcs := u.madcs, engs := u.engs } = u) ∧
      (∀ e g, c.req = .entry e g →
        let v := u.rd64 (pbA n.val (0x1100 + 8 * e.val))
        let x := u.smu n.val
        let got : Int := value * 2 ^ c.shift * 78125 / 2 ^ c.avg
        let want : Int := if entryField v 24 8 = 2 ∧ x.mode = 1 then x.force * 1000 else 0
        let op := decide (entryField v 0 2 ≠ 0) && (if c.ref ≠ 0 ∨ (entryField v 24 8 = 2 ∧ x.mode = 2) then openWire
          else decide (u.rdf (pbA n.val 0x1018) 0 16 * 1000000 < (got - want).natAbs))
        let seq := tget (fun _ => 0) (u.madc n.val).seqno e.val + 1
        let res := pbA n.val (0x1200 + 8 * e.val)
        let clip := value < -8388608 ∨ 8388607 < value
        Does (.madcResult n samples clamped openWire) s fun t => (t.madc n.val).conv = none ∧
          tget (fun _ => 0) (t.madc n.val).seqno e.val = seq ∧ TagTakes u t n.val g (word op e.val) ∧
          (u.tst (pbA n.val 0x1000) 1 = false → t.rd res = BitVec.ofInt 32 value ∧
            t.rd (res + 4) = BitVec.ofNat 32 (2 ^ 31 + flags * 2 ^ 27 + op.toNat * 2 ^ 26 + seq.toNat) ∧
            RegsBut u t [res, res + 4]) ∧
          (u.tst (pbA n.val 0x1000) 1 = true → t.tst (pbA n.val 0x1014) 31 = true ∧
            t.tst (pbA n.val 0x1014) 30 = u.tst (pbA n.val 0x1014) 31 ∧ t.rdf (pbA n.val 0x1014) 25 5 = e.val ∧
            (t.tst (pbA n.val 0x1014) 24 = true ↔ clip) ∧
            (value < -8388608 → t.rdf (pbA n.val 0x1014) 0 24 = 0x800000) ∧ (8388607 < value → t.rdf (pbA n.val 0x1014) 0 24 = 0x7FFFFF) ∧
            (¬ clip → t.rdf (pbA n.val 0x1014) 0 24 = (BitVec.ofInt 24 value).toNat) ∧ RegsBut u t [pbA n.val 0x1014]) ∧
          { t with madcs := u.madcs, engs := u.engs, bar := u.bar } = u))) ∧
  (∀ s p (n : Fin 64) (e : Fin 32) (hi : Word),
    let a := pbA n.val (0x1100 + 8 * e.val)
    let v := hi ++ (s.heldLo p a).getD (s.rd a)
    let busy := (∃ w ∈ (s.madc n.val).waiting, ∃ k g, w.req = .entry k g) ∨
      ∃ c, (s.madc n.val).conv = some c ∧ ∃ k g, c.req = .entry k g
    let takes := EntryGood v ∧ s.tst (pbA n.val 0x1000) 0 = false ∧ ¬ busy
    Reached s p (a + 4) →
      (takes → Does (.mseqCommit p n e hi) s fun t => t.rd64 a = v ∧ t.heldLo p a = none ∧ RegsBut s t [a, a + 4] ∧
        { t with bar := s.bar, held := s.held } = s) ∧
      (¬ takes → Does (.mseqCommit p n e hi) s fun t => t.tst (pbA n.val 0x1004) 3 = true ∧ t.heldLo p a = none ∧
        Raises s t 15 0 (pathKind p).1 (pathKind p).2 ∧ RegsBut s t [pbA n.val 0x1004] ∧
        { t with bar := s.bar, held := s.held, faults := s.faults } = s)) ∧
  (∀ s p (n : Fin 64), Reached s p (pbA n.val 0x1014) → Does (.madcDataRead p n) s fun t =>
    t.outbox = s.outbox ++ [.readData p (s.rd (pbA n.val 0x1014))] ∧
    t.rd (pbA n.val 0x1014) = s.rd (pbA n.val 0x1014) &&& 0x3FFFFFFF ∧ RegsBut s t [pbA n.val 0x1014] ∧
    { t with bar := s.bar, outbox := s.outbox } = s) ∧
  (∀ s p (n : Fin 64) (e : Fin 32),
    let a := pbA n.val (0x1200 + 8 * e.val)
    Reached s p a → Does (.madcResRead p n e) s fun t => t.outbox = s.outbox ++ [.readData p (s.rd a)] ∧
      t.getLatch p = s.rd (a + 4) ∧ t.rd (a + 4) = s.rd (a + 4) &&& 0x7FFFFFFF ∧ RegsBut s t [a + 4] ∧
      { t with bar := s.bar, outbox := s.outbox, latch := s.latch } = s)

/-- R118, R301–R308: a TDC is armed, starts, counts and ends by its sources, its matches or its timeout, is cancelled, and gives
its result to the TDCR that waits or to its registers. The model's choices it rests on: log 66. -/
def Obligations.TimeIntervals : Prop :=
  (∀ s x t, Issues s x (frm 7 [] []) →
    let e := x.eng.val
    let u := issueAt s e
    let k := 2 * e + t.val
    let z := tdcArmed u e t.val
    let past := z.cfg.toNat / 2 ^ 29 % 4 = 2 ∧ 2 ^ 47 ≤ (z.smatch - u.wtc).toNat
    ((u.tdc k).st = .idle → Does (.tdca x t) s fun r => EngIs u r e (moved (u.eng e)) ∧ (r.unit (1088 + k)).running = false ∧
      (¬ past → TdcIs u r k z) ∧ (past → (r.tdc k).st = .started ∧ (r.tdc k).late = true ∧ (r.tdc k).startAt = 1024 * u.now) ∧
      { r with engs := u.engs, lanes := u.lanes, tdcs := u.tdcs, units := u.units } = u) ∧
    ((u.tdc k).st ≠ .idle → Does (.tdca x t) s fun r => EngIs u r e (moved (u.eng e)) ∧ Raises u r 15 0 1 e ∧
      { r with engs := u.engs, lanes := u.lanes, faults := u.faults } = u)) ∧
  (∀ s x rd t, Issues s x (frm 7 [] [rd] (tag := true)) →
    let e := x.eng.val
    let u := issueAt s e
    let y := u.eng e
    let k := 2 * e + t.val
    let c := u.tdc k
    ((c.st = .idle) → Does (.tdcr x rd t) s fun r => ∃ z, Taken y ⟨rd, some 0x8000000000000000, .exact (u.now + 6)⟩ z ∧
      Becomes u e z r) ∧
    (c.st = .done → Does (.tdcr x rd t) s fun r => ∃ z, Taken y ⟨rd, some c.word, .exact (u.now + 6)⟩ z ∧ EngIs u r e z ∧
      TdcIs u r k { c with st := .idle } ∧ { r with engs := u.engs, lanes := u.lanes, tdcs := u.tdcs } = u) ∧
    ((c.st = .armed ∨ c.st = .started) → c.waiter = none → Does (.tdcr x rd t) s fun r => ∃ z j, y.freeTag = some j ∧
      Taken y ⟨rd, none, .tdc t⟩ z ∧ EngIs u r e z ∧ TdcIs u r k { c with waiter := some j } ∧
      { r with engs := u.engs, lanes := u.lanes, tdcs := u.tdcs } = u) ∧
    ((c.st = .armed ∨ c.st = .started) → c.waiter ≠ none → Does (.tdcr x rd t) s fun r =>
      ∃ z, Taken y ⟨rd, some 0x4000000000000000, .exact (u.now + 6)⟩ z ∧ EngIs u r e z ∧ Raises u r 15 0 1 e ∧
      { r with engs := u.engs, lanes := u.lanes, faults := u.faults } = u)) ∧
  (∀ s p (n : Fin 64) (t : Fin 2), Reached s p (tdcA n.val t.val 0) →
    let k := 2 * n.val + t.val
    let x := s.tdc k
    let z := tdcArmed s n.val t.val
    let past := z.cfg.toNat / 2 ^ 29 % 4 = 2 ∧ 2 ^ 47 ≤ (z.smatch - s.wtc).toNat
    (x.st = .idle → Does (.tdcArm p n t) s fun r => (r.unit (1088 + k)).running = false ∧ (¬ past → TdcIs s r k z) ∧
      (past → (r.tdc k).st = .started ∧ (r.tdc k).late = true ∧ (r.tdc k).startAt = 1024 * s.now) ∧
      { r with tdcs := s.tdcs, units := s.units } = s) ∧
    (x.st ≠ .idle → Does (.tdcArm p n t) s (· = s.cfgErr p)) ∧
    (x.st = .idle → Does (.disarm p n t) s (· = s)) ∧
    (x.st ≠ .idle → Does (.disarm p n t) s fun r =>
      TdcIs s r k { x with st := .idle, waiter := none, ended := none, started := false } ∧
      TagTakes s r n.val x.waiter (tdcWord x true false (s.season = 1) x.late 0) ∧ { r with tdcs := s.tdcs, engs := s.engs } = s)) ∧
  (∀ s (n : Fin 64) (t : Fin 2) (sub : BitVec 10),
    let k := 2 * n.val + t.val
    let x := s.tdc k
    let at_ := 1024 * s.now + sub.toNat
    let begun := fun (v : Nat) => { x with st := .started, started := true, startAt := v, lastAt := v, count := 0 }
    let stopPast := fun u : State => x.cfg.toNat / 2 ^ 21 % 4 = 2 ∧ 2 ^ 47 ≤ (x.pmatch - u.wtc).toNat
    let last := fun (v : Nat) (u : State) => tdcWord (begun v) false false (u.season = 1) true 0
    let overdue := fun (v : Nat) (u : State) => { begun v with late := true, ended := some (v / 1024, last v u) }
    let kind := x.cfg.toNat / 2 ^ 29 % 4
    (x.st ≠ .armed → Does (.tdcStart n t sub) s (· = s)) ∧
    (x.st = .armed → kind ≠ 2 → x.armAt < s.now → (¬ stopPast s → Does (.tdcStart n t sub) s fun r => TdcIs s r k (begun at_) ∧
        { r with tdcs := s.tdcs } = s) ∧
      (stopPast s → Does (.tdcStart n t sub) s fun r => TdcIs s r k (overdue at_ s) ∧ { r with tdcs := s.tdcs } = s)) ∧
    (let u := s.advance (x.smatch - s.wtc).toNat
     x.st = .armed → kind = 2 → Locked s → s.armed = none → u.wtc = x.smatch → u.tdc k = x →
      (¬ stopPast u → Does (.tdcStart n t sub) s fun r => TdcIs u r k (begun (1024 * u.now)) ∧ { r with tdcs := u.tdcs } = u) ∧
      (stopPast u → Does (.tdcStart n t sub) s fun r => TdcIs u r k (overdue (1024 * u.now) u) ∧ { r with tdcs := u.tdcs } = u))) ∧
  (∀ s (n : Fin 64) (t : Fin 2) (sub : BitVec 10),
    let k := 2 * n.val + t.val
    let x := s.tdc k
    let at_ := 1024 * s.now + sub.toNat
    let pmatch := x.cfg.toNat / 2 ^ 21 % 4 = 2
    let freq := x.cfg.getLsbD 31
    let word := fun (u : State) (y : Tdc) v => tdcWord y false false (u.season = 1) x.late (v - x.startAt)
    (freq = false → Does (.tdcEdgeCount n t sub) s (· = s)) ∧ (freq = true → Does (.tdcStop n t sub) s (· = s)) ∧
    (freq = true → x.st = .started → x.ended = none → x.startAt ≤ at_ →
      (at_ < x.lastAt + 256 → ¬ pmatch → Does (.tdcEdgeCount n t sub) s fun r => TdcIs s r k x ∧ { r with tdcs := s.tdcs } = s) ∧
      (x.lastAt + 256 ≤ at_ → x.count ≠ x.nm1 → Does (.tdcEdgeCount n t sub) s fun r =>
        TdcIs s r k { x with count := x.count + 1, lastAt := at_ } ∧ { r with tdcs := s.tdcs } = s) ∧
      (x.lastAt + 256 ≤ at_ → x.count = x.nm1 → Does (.tdcEdgeCount n t sub) s fun r =>
        TdcIs s r k { x with count := x.count + 1, lastAt := at_, ended := some (s.now, word s x at_) } ∧
        { r with tdcs := s.tdcs } = s)) ∧
    (freq = false → (x.st ≠ .started ∨ x.ended ≠ none) → Does (.tdcStop n t sub) s (· = s)) ∧
    (freq = false → x.st = .started → x.ended = none → ¬ pmatch → x.startAt ≤ at_ → x.lastAt + 256 ≤ at_ →
      Does (.tdcStop n t sub) s fun r => TdcIs s r k { x with ended := some (s.now, word s x at_) } ∧ { r with tdcs := s.tdcs } = s) ∧
    (let u := s.advance (x.pmatch - s.wtc).toNat
     freq = false → x.st = .started → x.ended = none → pmatch → Locked s → s.armed = none → u.wtc = x.pmatch → u.tdc k = x →
      x.startAt ≤ 1024 * u.now → Does (.tdcStop n t sub) s fun r =>
        TdcIs u r k { x with ended := some (u.now, word u x (1024 * u.now)) } ∧ { r with tdcs := u.tdcs } = u)) ∧
  (∀ s (n : Fin 64) (t : Fin 2),
    let k := 2 * n.val + t.val
    let x := s.tdc k
    let u := s.advanceTo (x.armAt + x.tmo)
    let runs := (x.st = .armed ∨ x.st = .started) ∧ x.ended = none
    (¬ runs → Does (.tdcTimeout n t) s (· = s)) ∧
    (runs → u.tdc k = x → Does (.tdcTimeout n t) s fun r => TdcIs u r k { x with ended := some (u.now, tdcWord x false true
      (u.season = 1) x.late (if x.cfg.getLsbD 31 = true ∧ 0 < x.count then x.lastAt - x.startAt else 0)) } ∧
      { r with tdcs := u.tdcs } = u)) ∧
  (∀ s (n : Fin 64) (t : Fin 2),
    let k := 2 * n.val + t.val
    let x := s.tdc k
    (x.ended = none → Does (.tdcResultWrite n t) s (· = s)) ∧
    (∀ tick w, x.ended = some (tick, w) →
      let u := s.advanceTo (tick + 16)
      let wide := (u.rd (pbA n.val 0x100C)).toNat / 2 ^ 31 = t.val ∧ w.getLsbD 57 = false ∧ w.toNat / 2 ^ 61 % 4 = 0 ∧
        (u.rd (pbA n.val 0x100C)).toNat % 2 ^ 31 < w.toNat % 2 ^ 50 ∧ u.dom 21 = true
      u.tdc k = x → Does (.tdcResultWrite n t) s fun r =>
        (x.waiter = none → TdcIs u r k { x with st := .done, ended := none, word := w }) ∧
        (x.waiter ≠ none → TdcIs u r k { x with st := .idle, ended := none, waiter := none }) ∧ TagTakes u r n.val x.waiter w ∧
        (wide → EntriesStarted u r n.val 2) ∧ (¬ wide → r.madcs = u.madcs) ∧
        { r with tdcs := u.tdcs, engs := u.engs, madcs := u.madcs } = u)) ∧
  (∀ s p (n : Fin 64) (t : Fin 2), Reached s p (tdcA n.val t.val 0x28) →
    let k := 2 * n.val + t.val
    let x := s.tdc k
    (x.st = .done → Does (.tdcResRead p n t) s fun r => r.outbox = s.outbox ++ [.readData p (x.word.truncate 32)] ∧
      r.getLatch p = BitVec.ofNat 32 (x.word.toNat / 2 ^ 32) ∧ TdcIs s r k { x with st := .idle } ∧
      { r with outbox := s.outbox, latch := s.latch, tdcs := s.tdcs } = s) ∧
    (x.st ≠ .done → Does (.tdcResRead p n t) s fun r => r.outbox = s.outbox ++ [.readData p 0] ∧ r.getLatch p = 0x80000000 ∧
      { r with outbox := s.outbox, latch := s.latch } = s))

namespace Sys2Proof.Machine

/-- An image that passes every check of R317 but that on reading it: its form (R314, R361), its device words, its key, its
signature and its security version. -/
def ImageGood (k : ImageKind) (b : List Byte) : Prop :=
  let words := leAt b 0x18 4
  let sig := k.code + 16 * words
  0x40 ≤ b.length ∧ leAt b 0 4 = k.magic ∧ leAt b 4 2 = 1 ∧ leAt b 6 2 = 64 ∧ leAt b 0x0B 1 = 0 ∧ 1 ≤ words ∧
  words ≤ k.maxWords ∧ leAt b 0x1E 34 = 0 ∧ b.length = sig + 208 ∧ leAt b sig 1 = 4 ∧ leAt b (sig + 97) 15 = 0 ∧
  (k.code = 0x840 → ∀ i < 1024, leAt b (0x40 + 2 * i) 2 < 4096 ∧
    ((fieldsOf (i / 64) (i % 64)).isSome = true → leAt b (0x40 + 2 * i) 2 < words)) ∧
  leAt b 0x10 4 = 0x0F1C1024 ∧ leAt b 0x14 4 = 0xB0 ∧
  (∀ i < 12, ((Config.sha384 ((b.drop sig).take 97)) >>> (352 - 32 * i)).truncate 32 = Config.keyHash i) ∧
  Config.ecdsaP384 ((b.drop sig).take 97) (Config.sha384 (b.take sig)) ((b.drop (sig + 112)).take 96) = true ∧
  Config.svnMinimum.toNat ≤ leAt b 0x1C 2

/-- The reads of one stack have come to its threshold for the first time (R330). -/
def CeThreshold (s : State) (k : Nat) : Prop :=
  s.rd 0x100C ≠ 0 ∧ s.rd (0x1010 + 4 * k) + 1 = s.rd 0x100C ∧ s.ceFired.getLsbD k = false

/-- The range [a, a + n) of HBM begins and ends in a stack that is on. -/
def SpanOn (s : State) (a n : Nat) : Prop := s.dom (4 + a / 2 ^ 34) = true ∧ s.dom (4 + (a + n - 1) / 2 ^ 34) = true

/-- A descriptor that passes every check of R334. -/
def DescGood (q : BitVec 256) : Prop :=
  let f := fun lo len => q.toNat / 2 ^ lo % 2 ^ len
  let src := f 0 64
  let dst := f 64 64
  let len := f 160 31
  let sspc := f 154 2
  let dspc := f 152 2
  let fix := f 151 1
  let preq := f 142 6
  f 191 1 = 0 ∧ f 128 14 = 0 ∧ f 194 3 = 0 ∧ 6 ≤ f 156 4 ∧ f 156 4 ≤ 12 ∧ sspc ≠ 3 ∧ dspc ≠ 3 ∧ f 192 2 ≠ 2 ∧
  (f 148 1 = 1 → f 192 2 ≠ 3) ∧ len ≠ 0 ∧ len % 4 = 0 ∧ src % 4 = 0 ∧ dst % 4 = 0 ∧
  (preq ≠ 0 → len % (if preq = 33 then 8 else 32) = 0 ∧ src = 0 ∧ sspc = 0 ∧ preq ≤ 33) ∧
  (preq = 0 → (sspc = 0 → src + len ≤ 2 ^ 36) ∧ (sspc = 2 → src + len ≤ 2 ^ 26)) ∧
  (let m := if fix = 1 then 8 else len
   (dspc = 0 → dst + m ≤ 2 ^ 36) ∧ (dspc = 2 → dst + m ≤ 2 ^ 26)) ∧ (fix = 1 → dspc = 2)

/-- A channel ends: CH_STAT.END and RESID say how, its vector occurs, and it holds nothing any more (R337). -/
def ChannelEnds (s t : State) (d c e resid : Nat) (st : ChSt) : Prop :=
  t.chan (16 * d + c) = { st := st } ∧ (∀ k, k ≠ 16 * d + c → t.chan k = s.chan k) ∧ t.rdf (chA d c 0x04) 4 3 = e ∧
  t.rd (chA d c 0x18) = BitVec.ofNat 32 resid ∧ Irq s t (3 + (16 * d + c))

end Sys2Proof.Machine

/-- R310–R320, R325, R360–R363: the loads of microcode, their checks and refusals; HOST_GO; the firmware and the blob. The model's
choices it rests on: logs 14, 47 and 48. -/
def Obligations.SignedImagesAndBoot : Prop :=
  (∀ k b, (imageCause k b false = 0 ↔ ImageGood k b) ∧ (ImageGood k b → imageCause k b true = 6)) ∧
  (∀ s p, Reached s p (mcsA 0x000) →
    let free := (∀ e < 96, (s.eng e).st = .stopped) ∧ s.tst (mcsA 0x004) 0 = false
    let base := (s.rd64 (mcsA 0x010)).toNat % 2 ^ 36 / 64 * 64
    let len := s.rdf (mcsA 0x018) 0 17
    (free → Does (.mcsLoad p) s fun t => t.mcsJob = 1 ∧ t.tst (mcsA 0x004) 0 = true ∧ RegsBut s t [mcsA 0x004] ∧
      (s.tst 0x1004 (base / 2 ^ 34) = true → (base + len - 1) / 2 ^ 34 = base / 2 ^ 34 → ∃ b, t.mcsBuf = some b ∧ b.length = len ∧
        ∀ i < len, b[i]? = some (s.hbmB (base + i))) ∧
      (s.tst 0x1004 (base / 2 ^ 34) = false → t.mcsBuf = none) ∧
      { t with mcsJob := s.mcsJob, mcsBuf := s.mcsBuf, bar := s.bar } = s) ∧
    (free → Does (.reload p) s fun t => t.mcsJob = 2 ∧ t.tst (mcsA 0x004) 0 = true ∧ RegsBut s t [mcsA 0x004] ∧
      { t with mcsJob := s.mcsJob, bar := s.bar } = s) ∧
    (¬ free → Does (.mcsLoad p) s (· = s.cfgErr p) ∧ Does (.reload p) s (· = s.cfgErr p))) ∧
  (∀ s readBackOk,
    let refused := fun (cause : Nat) (t : State) => t.tst (mcsA 0x004) 31 = true ∧ t.rdf (mcsA 0x004) 8 4 = cause ∧
      Raises s t 15 0 8 0
    let ends := fun t : State => t.mcsJob = 0 ∧ t.mcsBuf = none ∧ t.tst (mcsA 0x004) 0 = false ∧
      RegsBut s t [mcsA 0x004, mcsA 0x008, mcsA 0x00C, mcsA 0x01C] ∧ t.hbm = s.hbm ∧ t.engs = s.engs
    let rom := fun t : State => t.mcsCopy = none ∧ t.tst (mcsA 0x004) 1 = false ∧ t.rd (mcsA 0x008) = 0x01000000 ∧
      t.rd (mcsA 0x00C) = 0 ∧ t.rdf (mcsA 0x01C) 16 16 = 0
    (s.tst (mcsA 0x004) 0 = false → ∀ ecc, Does (.mcsLoadDone ecc readBackOk) s (· = s)) ∧
    (s.tst (mcsA 0x004) 0 = true → s.mcsJob = 1 →
      (s.mcsBuf = none → Does (.mcsLoadDone .ok readBackOk) s fun t => ends t ∧ refused 6 t ∧ t.mcsCopy = s.mcsCopy) ∧
      (∀ b, s.mcsBuf = some b →
        (imageCause mcsImage b false ≠ 0 → Does (.mcsLoadDone .ok readBackOk) s fun t => ends t ∧
          refused (imageCause mcsImage b false) t ∧ t.mcsCopy = s.mcsCopy) ∧
        (ImageGood mcsImage b → readBackOk = true → Does (.mcsLoadDone .ok readBackOk) s fun t => ends t ∧ t.mcsCopy = some b ∧
          t.tst (mcsA 0x004) 1 = true ∧
          t.rd (mcsA 0x008) = BitVec.ofNat 32 (leAt b 8 1 * 2 ^ 24 + leAt b 9 1 * 2 ^ 16 + leAt b 10 1 * 2 ^ 8) ∧
          t.rd (mcsA 0x00C) = BitVec.ofNat 32 (leAt b 0x0C 4) ∧ t.rdf (mcsA 0x01C) 16 16 = leAt b 0x1C 2 ∧ t.faults = s.faults) ∧
        (ImageGood mcsImage b → readBackOk = false → Does (.mcsLoadDone .ok readBackOk) s fun t => ends t ∧ refused 7 t ∧ rom t) ∧
        (ImageGood mcsImage b → Does (.mcsLoadDone .ue readBackOk) s fun t => t.tst (mcsA 0x004) 31 = true ∧
          t.rdf (mcsA 0x004) 8 4 = 6 ∧ t.mcsCopy = s.mcsCopy ∧ t.tst (mcsA 0x004) 0 = false))) ∧
    (s.tst (mcsA 0x004) 0 = true → s.mcsJob = 2 → ∀ ecc,
      ((s.mcsCopy = none ∨ readBackOk = true) → Does (.mcsLoadDone ecc readBackOk) s fun t => ends t ∧ t.mcsCopy = s.mcsCopy ∧
        t.faults = s.faults ∧ RegsBut s t [mcsA 0x004]) ∧
      (s.mcsCopy ≠ none → readBackOk = false → Does (.mcsLoadDone ecc readBackOk) s fun t => ends t ∧ refused 8 t ∧ rom t))) ∧
  (∀ s p, Reached s p 0x044 →
    (s.rdf 0x040 0 3 = 2 → s.dom 1 = true → Does (.hostGo p) s fun t => t.tst 0x040 4 = true ∧ t.rdf 0x040 0 3 = 3 ∧
      OnlyRegs s t [0x040]) ∧
    (s.rdf 0x040 0 3 ≠ 2 → Does (.hostGo p) s (· = s.cfgErr p))) ∧
  (∀ s fw blob ecc,
    let stage := s.rdf 0x040 0 3
    let boots := (stage = 1 ∨ stage = 3) ∧ (s.season = 1 ∨ s.season = 3)
    let image := fw.take (0x40 + 16 * leAt fw 0x18 4 + 208)
    let cfg := blob.take (12 + 8 * leAt blob 4 2)
    (¬ boots → Does (.firmwareLoadDone fw blob ecc) s (· = s)) ∧
    (boots → s.tst 0x040 4 = false →
      (imageCause fwImage image false ≠ 0 → Does (.firmwareLoadDone fw blob ecc) s fun t => t.tst 0x040 30 = true ∧
        t.rdf 0x040 0 3 = 2 ∧ t.rdf 0x040 8 4 = imageCause fwImage image false ∧ (s.tst 0x060 1 = true → Irq s t 2) ∧
        RegsBut s t [0x040, 0x4000] ∧ { t with bar := s.bar, outbox := s.outbox } = s) ∧
      (ImageGood fwImage image → Does (.firmwareLoadDone fw blob ecc) s fun t => t.rdf 0x040 0 3 = 5 ∧ t.tst 0x00C 1 = true ∧
        t.card.cirLoading = true ∧ (blobCause cfg = 0 → t.blob = false) ∧
        (blobCause cfg ≠ 0 → t.tst 0x040 31 = true ∧ t.rdf 0x040 12 4 = blobCause cfg ∧ Raises s t 15 0 8 0))))

/-- R326–R332: the fill of a stack, the patrol scrub and its counts, and the host's reads and writes of HBM. The model's choices
it rests on: logs 21, 28, 58 and 69. -/
def Obligations.HighBandwidthMemory : Prop :=
  (∀ s p (which : BitVec 4), Reached s p 0x1000 →
    let idle := (∀ e < 96, (s.eng e).st = .stopped) ∧ ∀ c < 64, (s.chan c).st = .idle
    (idle → (∀ k < 4, which.getLsbD k = true → s.dom (4 + k) = true) → Does (.init p which) s fun t =>
      (∀ k < 4, which.getLsbD k = true → t.tst 0x1004 k = false ∧ t.filling.getLsbD k = true ∧
        ∀ a, a / 2 ^ 34 = k → t.hbmB a = 0) ∧
      (∀ k < 4, which.getLsbD k = false → t.tst 0x1004 k = s.tst 0x1004 k ∧ t.filling.getLsbD k = s.filling.getLsbD k ∧
        ∀ a, a / 2 ^ 34 = k → t.hbmB a = s.hbmB a) ∧
      RegsBut s t [0x1004] ∧ { t with bar := s.bar, hbm := s.hbm, filling := s.filling } = s) ∧
    ((¬ idle ∨ ∀ k < 4, which.getLsbD k = true → s.dom (4 + k) = false) → Does (.init p which) s fun t =>
      { t with faults := s.faults } = s ∧ (∀ k : Nat, which = BitVec.ofNat 4 (2 ^ k) → k < 4 → t = s.cfgErr p))) ∧
  (∀ s (k : Fin 4),
    let fills := s.filling.getLsbD k.val = true ∧ s.dom (4 + k.val) = true
    (fills → Does (.hbmFillDone k) s fun t => t.tst 0x1004 k.val = true ∧ t.rd (0x1040 + 4 * k.val) = 0 ∧
      t.filling.getLsbD k.val = false ∧ RegsBut s t [0x1004, 0x1040 + 4 * k.val] ∧ { t with bar := s.bar, filling := s.filling } = s) ∧
    (¬ fills → Does (.hbmFillDone k) s (· = s))) ∧
  (∀ (s : State) (k : Fin 4),
    let at_ := 0x1040 + 4 * k.val
    let pos := (s.rd at_).toNat
    let a := k.val * 2 ^ 34 + pos * 64
    let runs := s.tst 0x1004 k.val = true ∧ s.rdf 0x1008 0 8 ≠ 0
    let goesOn := fun t : State => t.rd at_ = BitVec.ofNat 32 ((pos + 1) % 2 ^ 28) ∧ t.hbm = s.hbm
    (∀ ecc, ¬ runs → Does (.patrolScrub k ecc) s (· = s)) ∧
    (runs → pos < 2 ^ 28 →
      Does (.patrolScrub k .ok) s (fun t => goesOn t ∧ OnlyRegs s t [at_]) ∧
      Does (.patrolScrub k .ce) s (fun t => goesOn t ∧ CountsUp s t (0x1010 + 4 * k.val) ∧
        RegsBut s t [at_, 0x1004, 0x1010 + 4 * k.val] ∧ (CeThreshold s k.val → t.tst 0x1004 (20 + k.val) = true ∧
          Raises s t 0 1 7 k.val) ∧ (¬ CeThreshold s k.val → (s.rd (0x1010 + 4 * k.val)).toNat < 2 ^ 32 - 1 → t.faults = s.faults)) ∧
      Does (.patrolScrub k .ue) s (fun t => goesOn t ∧ CountsUp s t (0x1020 + 4 * k.val) ∧ Raises s t 1 0 7 k.val ∧
        t.tst 0x1004 19 = true ∧ (s.tst 0x1004 19 = false → t.rd64 0x1030 = BitVec.ofNat 64 a) ∧
        (s.tst 0x1004 19 = true → t.rd64 0x1030 = s.rd64 0x1030) ∧
        RegsBut s t [at_, 0x1004, 0x1020 + 4 * k.val, 0x1030, 0x1034]))) ∧
  (∀ s (a : BitVec 36), s.seas.resetLow = false → s.season ≠ 0 → s.season ≠ 4 → s.season ≠ 5 →
    (∀ n, 0 < n → a.toNat + n ≤ 2 ^ 36 → (SpanOn s a.toNat n →
        Does (.bar2Read a n .ok) s (fun t => t = { s with outbox :=
          s.outbox ++ [.bar2Data ((List.range n).map fun i => s.hbmB (a.toNat + i))] }) ∧
        Does (.bar2Read a n .ue) s (fun t => t.outbox = s.outbox ++ [.poisoned n] ∧ t.hbm = s.hbm ∧
          Raises s t 1 0 7 (a.toNat / 2 ^ 34))) ∧
      (¬ SpanOn s a.toNat n → ∀ ecc, Does (.bar2Read a n ecc) s fun t => t.tst 0x1004 17 = true ∧ Raises s t 14 0 9 0 ∧
        t.outbox = s.outbox ++ [.bar2Data (List.replicate n 0xFF)] ∧ RegsBut s t [0x1004] ∧
        { t with bar := s.bar, faults := s.faults, outbox := s.outbox } = s)) ∧
    (∀ data : List (Option Byte), data ≠ [] → a.toNat + data.length ≤ 2 ^ 36 →
      (SpanOn s a.toNat data.length → Does (.bar2Write a data .ok) s fun t => { t with hbm := s.hbm } = s ∧ ∀ b, t.hbmB b =
        if a.toNat ≤ b ∧ b < a.toNat + data.length then (data.getD (b - a.toNat) none).getD (s.hbmB b) else s.hbmB b) ∧
      (¬ SpanOn s a.toNat data.length → ∀ ecc, Does (.bar2Write a data ecc) s fun t => t.tst 0x1004 17 = true ∧
        Raises s t 14 0 9 0 ∧ RegsBut s t [0x1004] ∧ { t with bar := s.bar, faults := s.faults } = s)))

/-- R333–R341, R351: the commands of a DMA channel, its service, its descriptors, its bursts and its ends; a bus error stops the
engine. The model's choices it rests on: logs 58 and 59. -/
def Obligations.DmaChannels : Prop :=
  (∀ q, dDerr q = 0 ↔ DescGood q) ∧
  (∀ s p (d : Fin 4) (c : Fin 16),
    let k := 16 * d.val + c.val
    let x := s.chan k
    let others := fun t : State => (∀ j, j ≠ k → t.chan j = s.chan j) ∧ { t with chans := s.chans } = s
    let at_ := (s.rd64 (chA d.val c.val 0x08)).toNat
    Reached s p (chA d.val c.val 0) →
      (s.season = 3 → Does (.go p d c) s (· = s)) ∧
      (s.season ≠ 3 → (s.tst (dmaA d.val 0x004) 8 = true ∨ x.st ≠ .idle) → Does (.go p d c) s (· = s.cfgErr p)) ∧
      (s.season ≠ 3 → s.tst (dmaA d.val 0x004) 8 = false → x.st = .idle → Does (.go p d c) s fun t => others t ∧
        t.chan k = { st := .queued, place := if at_ % 4 = 0 then .hbm (at_ / 32 * 32) else .host (at_ / 32 * 32) }) ∧
      ((x.st = .idle ∨ x.st = .halted) → Does (.abort p d c) s (· = s)) ∧
      (x.st = .active → Does (.abort p d c) s fun t => others t ∧ t.chan k = { x with abort := true }) ∧
      ((x.st = .queued ∨ x.st = .waiting) → Does (.abort p d c) s fun t => ChannelEnds s t d.val c.val 2 x.resid .idle ∧
        t.faults = s.faults ∧ (∀ q, x.desc = some q → q.getLsbD 150 = true → ∀ a, x.place = .hbm a → a + 32 ≤ 2 ^ 36 →
          s.dom (4 + a / 2 ^ 34) = true → t.hbmW (a + 16) = BitVec.ofNat 64 (2 ^ 63 + 2 * 2 ^ 60 + x.resid)) ∧
        ((∀ q, x.desc = some q → q.getLsbD 150 = false) → t.hbm = s.hbm))) ∧
  (∀ s p (d : Fin 4), Reached s p (dmaA d.val 0) →
    let free := s.tst (dmaA d.val 0x004) 8 = true ∨ ∀ c < 16, (s.chan (16 * d.val + c)).st = .idle
    (free → Does (.dmaReset p d) s fun t => (∀ k, k / 16 = d.val → t.chan k = {}) ∧ (∀ k, k / 16 ≠ d.val → t.chan k = s.chan k) ∧
      t.tst (dmaA d.val 0x004) 8 = false ∧ RegsBut s t [dmaA d.val 0x004] ∧ { t with bar := s.bar, chans := s.chans } = s) ∧
    (¬ free → Does (.dmaReset p d) s (· = s.cfgErr p))) ∧
  (∀ (s : State) (d : Fin 4),
    let ch := fun c => s.chan (16 * d.val + c)
    let busy := s.tst (dmaA d.val 0x004) 8 = true ∨ ∃ c < 16, (ch c).st = .active
    ((busy ∨ ∀ c < 16, (ch c).st ≠ .queued) → Does (.channelService d) s (· = s)) ∧
    (∀ c < 16, ¬ busy → (ch c).st = .queued → (∀ j < c, (ch j).st ≠ .queued) →
      let is := fun (x : Chan) (t : State) => t.chan (16 * d.val + c) = x ∧ (∀ j, j ≠ 16 * d.val + c → t.chan j = s.chan j) ∧
        { t with chans := s.chans } = s
      ((ch c).desc = none ∨ (ch c).taken = false → Does (.channelService d) s (is { ch c with st := .active })) ∧
      (∀ q, (ch c).desc = some q → (ch c).taken = true →
        let preq := q.toNat / 2 ^ 142 % 2 ^ 6
        let size := if preq = 33 then 8 else 32
        let fixed := fun (q : BitVec 256) (size : Nat) => min (s.preqLevel preq)
          (min (2 ^ (q.toNat / 2 ^ 156 % 16) / size) ((q.toNat / 2 ^ 160 % 2 ^ 31 - (ch c).moved) / size))
        (preq = 0 → Does (.channelService d) s (is { ch c with st := .active })) ∧
        (preq ≠ 0 → (s.preqLevel preq = 0 → Does (.channelService d) s (is { ch c with st := .waiting })) ∧
          (s.preqLevel preq ≠ 0 → Does (.channelService d) s (is { ch c with st := .active, entries := fixed q size })))))) ∧
  (∀ (s : State) (d : Fin 4) (c : Fin 16),
    let x := s.chan (16 * d.val + c.val)
    let wakes := x.st = .waiting ∧ ∃ q, x.desc = some q ∧ 0 < s.preqLevel (q.toNat / 2 ^ 142 % 2 ^ 6)
    (wakes → Does (.preqAssert d c) s fun t => t.chan (16 * d.val + c.val) = { x with st := .queued } ∧
      (∀ j, j ≠ 16 * d.val + c.val → t.chan j = s.chan j) ∧ { t with chans := s.chans } = s) ∧
    (x.st ≠ .waiting → Does (.preqAssert d c) s (· = s))) ∧
  (∀ (s : State) (d : Fin 4) (c : Fin 16) host ecc,
    let k := 16 * d.val + c.val
    let x := s.chan k
    let takes := fun (q : BitVec 256) (a : Nat) (t : State) =>
      let st : ChSt := if q.toNat / 2 ^ 142 % 2 ^ 6 = 0 then .active else .waiting
      let cur := some (BitVec.ofNat 64 a)
      (DescGood q → t.chan k = { x with desc := some q, cur := cur, moved := 0, taken := true, st := st } ∧ (∀ j, j ≠ k → t.chan j = s.chan j) ∧
        t.rdf (chA d.val c.val 0x04) 8 4 = 0 ∧ RegsBut s t [chA d.val c.val 0x04] ∧ { t with bar := s.bar, chans := s.chans } = s) ∧
      (¬ DescGood q → ChannelEnds s t d.val c.val 3 (q.toNat / 2 ^ 160 % 2 ^ 31) .idle ∧ t.faults = s.faults ∧
        t.rdf (chA d.val c.val 0x04) 8 4 = dDerr q ∧ t.rd64 (chA d.val c.val 0x10) = BitVec.ofNat 64 a)
    ((x.st ≠ .active ∨ x.taken = true) → Does (.descriptorTake d c host ecc) s (· = s)) ∧
    (x.st = .active → x.taken = false → x.abort = true → Does (.descriptorTake d c host ecc) s fun t =>
      ChannelEnds s t d.val c.val 2 x.resid .idle ∧ t.faults = s.faults) ∧
    (x.st = .active → x.taken = false → x.abort = false →
      (∀ a, x.place = .host a → s.busMaster = true → Does (.descriptorTake d c host ecc) s (takes host a)) ∧
      (∀ a, x.place = .hbm a → a + 32 ≤ 2 ^ 36 → s.dom (4 + a / 2 ^ 34) = true → Does (.descriptorTake d c host .ok) s (takes
        (s.hbmW (a + 24) ++ s.hbmW (a + 16) ++ s.hbmW (a + 8) ++ s.hbmW a) a)) ∧
      (∀ e w q, x.place = .dmem e w → x.desc = some q → Does (.descriptorTake d c host ecc) s (takes q (dmemA e.val w))))) ∧
  (∀ (s : State) (d : Fin 4) (c : Fin 16) host q,
    let k := 16 * d.val + c.val
    let x := s.chan k
    let f := fun lo len => q.toNat / 2 ^ lo % 2 ^ len
    let left := f 160 31 - x.moved
    let n := min (2 ^ f 156 4) left
    let from_ := f 0 64 + x.moved
    let dest := f 64 64 + x.moved
    x.desc = some q → x.st = .active → x.taken = true → x.abort = false → f 142 6 = 0 → f 154 2 = 0 → f 152 2 = 0 → 0 < left →
    SpanOn s from_ n → SpanOn s dest n → (f 150 1 = 1 → ∃ a, x.place = .hbm a ∧ a + 32 ≤ 2 ^ 36 ∧ s.dom (4 + a / 2 ^ 34) = true) →
    let next : DPlace := if f 192 2 = 0 then .hbm (f 197 59 * 32) else .host (f 197 59 * 32)
    Does (.dmaBurst d c host .ok) s fun t =>
      (n < left → t.chan k = { x with moved := x.moved + n } ∧ { t with hbm := s.hbm, chans := s.chans } = s) ∧
      (n = left → f 148 1 = 0 → (f 149 1 = 0 → f 150 1 = 0 → RegsBut s t [chA d.val c.val 0x04, chA d.val c.val 0x10,
          chA d.val c.val 0x14, chA d.val c.val 0x18, chA d.val c.val 0x1C] ∧ { t with bar := s.bar, hbm := s.hbm, chans := s.chans } = s) ∧
        (f 149 1 = 1 → f 150 1 = 0 → Irq s t (3 + k)) ∧ (f 150 1 = 0 → t.chan k = { st := .idle } ∧
          t.rdf (chA d.val c.val 0x04) 4 3 = 1 ∧ t.rd (chA d.val c.val 0x18) = 0 ∧ CountsUp s t (chA d.val c.val 0x1C))) ∧
      (n = left → f 148 1 = 1 → t.chan k = { x with desc := none, taken := false, moved := 0, place := next, st := .active }) ∧
      (n = left → f 150 1 = 1 → ∀ a, x.place = .hbm a → t.hbmW (a + 16) = BitVec.ofNat 64 (2 ^ 63 + 2 ^ 60)) ∧
      (∀ j, j ≠ k → t.chan j = s.chan j) ∧ t.engs = s.engs ∧ t.faults = s.faults ∧
      (f 150 1 = 0 ∨ n < left → ∀ b, t.hbmB b = if dest ≤ b ∧ b < dest + n then s.hbmB (b - dest + from_) else s.hbmB b)) ∧
  (∀ s (d : Fin 4) (cause : BitVec 4) addr (space : BitVec 2) wr (reads : BitVec 16) i,
    (i = .busError d cause addr space wr reads ∨ (cause = 2 ∧ i = .dmaCompletionTimeout d addr space wr reads)) →
    (s.tst (dmaA d.val 0x004) 8 = true → Does i s (· = s)) ∧
    (s.tst (dmaA d.val 0x004) 8 = false → Does i s fun t => t.tst (dmaA d.val 0x004) 8 = true ∧ t.rd64 (dmaA d.val 0x008) = addr ∧
      t.rdf (dmaA d.val 0x010) 0 7 = wr.toNat * 2 ^ 6 + cause.toNat * 2 ^ 2 + space.toNat ∧
      (∀ c < 16, let st := (s.chan (16 * d.val + c)).st
        (t.tst (dmaA d.val 0x010) (16 + c) = true ↔ st = .active ∨ (reads.getLsbD c = true ∧ st ≠ .idle)) ∧
        ((st = .idle ∨ st = .halted) → t.chan (16 * d.val + c) = s.chan (16 * d.val + c)) ∧
        (st ≠ .idle → st ≠ .halted → t.chan (16 * d.val + c) = { st := .halted } ∧ t.rdf (chA d.val c 0x04) 4 3 = 5)) ∧
      (∀ k, k / 16 ≠ d.val → t.chan k = s.chan k) ∧ Raises s t 13 2 5 d.val ∧ t.engs = s.engs))

namespace Sys2Proof.Machine

/-- Every engine is STOPPED (R347). -/
def AllStopped (s : State) : Prop := ∀ e < 96, (s.eng e).st = .stopped

/-- The engines that a domain holds up (R22, R275). -/
def enginesOf (d : Nat) : List Nat :=
  if 8 ≤ d ∧ d < 16 then (List.range 8).map (· + 8 * (d - 8))
  else if 16 ≤ d ∧ d < 20 then (List.range 8).map (· + (64 + 8 * (d - 16)))
  else if d = 23 then List.range 96 else []

/-- A switch-off that is refused (R22, R275, R343, R344). -/
def OffRefused (s : State) (d : Nat) : Prop :=
  s.dom 1 = true ∧ s.dom d = true ∧
  ((4 ≤ d ∧ d < 8 ∧ (¬ AllStopped s ∨ ∃ c < 64, (s.chan c).st ≠ .idle)) ∨ (d = 20 ∧ ∃ n < 64, s.tst (pbA n 0xC0C) 0 = true) ∨
   ∃ e ∈ enginesOf d, (s.eng e).st = .running ∨ (s.eng e).st = .suspended ∨ (s.eng e).st = .sigWait)

/-- A season command that is refused: the bits of GLB_SEASON_ERR, and CFG in the seasons with engines (R346). -/
def SeasonRefused (s t : State) (p : Path) (bits : Nat) : Prop :=
  t.rd 0x018 = s.rd 0x018 ||| BitVec.ofNat 32 bits ∧ RegsBut s t [0x018] ∧ { t with bar := s.bar, faults := s.faults } = s ∧
  t.faults = (if s.season = 1 ∨ s.season = 2 ∨ s.season = 3 then (s.cfgErr p).faults else s.faults)

/-- The conditions of R347 that fail. -/
def summerBits (s : State) : Nat :=
  (!s.enginesStopped).toNat + (!s.tst (calA 0x004) 0).toNat * 4 + (!s.seas.refWarm).toNat * 8 +
  (!s.tst (timeA 0x004) 0 || s.tst (timeA 0x004) 4).toNat * 16 +
  (decide ((s.rdf (decA 0x008) 30 2 = 1 ∨ s.rdf (decA 0x008) 30 2 = 2) ∧ s.dec.nstate ≠ .joined)).toNat * 32 +
  (s.tst (mcsA 0x004) 0).toNat * 64 + (!s.tst 0x00C 1).toNat * 128

/-- The RF ports and TDCs after a change between SPRING and SUMMER (R349). -/
def ChangedOver (s t : State) (season : Nat) : Prop :=
  t.rd 0x010 = BitVec.ofNat 32 (season + 16 * s.season) ∧ (s.tst 0x060 0 = true → Irq s t 2) ∧
  (∀ n < 32, (t.tx n).st = .idle ∨ (t.tx n).st = .muted) ∧ (∀ n < 32, (t.rx n).wins = [] ∧ (t.rx n).units = []) ∧
  ∀ k < 128, (t.tdc k).st = .idle

/-- What holds a wake event up (R356). -/
def WakeBlocked (s : State) : Prop :=
  s.seas.refPresent = false ∨ s.tst 0x00C 0 = false ∨ ((s.rdf 0x038 28 4 = 3 ∨ s.rdf 0x038 28 4 = 4) ∧ 1100 < s.seas.aon)

/-- The module is in WINTER: the cause, the class and the stacks it keeps; nothing of the other domains is left (R352–R354). -/
def InWinter (u t : State) (cause fclass : Nat) (kept : Nat → Bool) : Prop :=
  t.season = 0 ∧ t.rdf 0x010 4 3 = u.season ∧ t.rd 0x024 = 1 ∧ t.rdf 0x038 28 4 = cause ∧ t.rdf 0x038 24 4 = fclass ∧
  (∀ k < 4, t.tst 0x038 k = kept k) ∧ t.tst 0x00C 1 = false ∧ t.engs = [] ∧ t.pes = [] ∧ t.txs = [] ∧ t.rxs = [] ∧ t.smus = [] ∧
  t.chans = [] ∧ t.faults = [] ∧ t.tabs = [] ∧ t.mcsCopy = none ∧ t.calW = u.calW ∧ t.calF = u.calF ∧
  (∀ a, domainOf a ≠ 0 → (a < 0x2000 ∨ 0x4020 ≤ a) → t.rd a = State.reset.rd a) ∧
  ∀ a < 2 ^ 36, t.hbmB a = if kept (a / 2 ^ 34) then u.hbmB a else 0

/-- A threshold with its hysteresis, in 0.1 °C (R384). -/
def overHysteresis (was : Bool) (t on off : Int) : Bool := if was then decide (off ≤ t) else decide (on ≤ t)

end Sys2Proof.Machine

/-- R22, R275, R327, R343–R345: a write of GLB_PWR_EN switches domains on, and off where nothing depends on them; the power comes
and goes, and a domain without it is at its reset values. The model's choices it rests on: logs 67 and 74. -/
def Obligations.PowerDomains : Prop :=
  (∀ s p (v : Word), Reached s p 0x020 →
    ((∀ d, 3 ≤ d → d < 24 → s.tst 0x020 d = true → v.getLsbD d = true) → Does (.pwrEnWrite p v) s fun t =>
      t.rd 0x020 = s.rd 0x020 ||| (v &&& 0xFFFFF8) ∧ OnlyRegs s t [0x020]) ∧
    (∀ d, 3 ≤ d → d < 24 → s.tst 0x020 d = true → v.getLsbD d = false →
      (∀ j, 3 ≤ j → j < 24 → j ≠ d → v.getLsbD j = s.tst 0x020 j) →
      (OffRefused s d → Does (.pwrEnWrite p v) s fun t => t.tst 0x028 d = true ∧ Raises s t 15 0 (pathKind p).1 (pathKind p).2 ∧
        RegsBut s t [0x028] ∧ { t with bar := s.bar, faults := s.faults } = s) ∧
      (¬ OffRefused s d → Does (.pwrEnWrite p v) s fun t => t.tst 0x020 d = false ∧ t.rd 0x024 = s.rd 0x024 ∧
        (s.dom d = false ∨ (d ≠ 3 ∧ (d < 16 ∨ 20 ≤ d)) → OnlyRegs s t [0x020]) ∧
        (16 ≤ d → d < 20 → s.dom d = true → ∀ n, 8 * (d - 16) ≤ n → n < 8 * (d - 15) → (t.tx n).st = .idle ∨ (t.tx n).st = .muted)))) ∧
  (∀ (s : State) (d : Fin 24),
    let comes := s.dom 1 = true ∧ s.tst 0x020 d.val = true ∧ s.dom d.val = false
    let goes := s.dom 1 = true ∧ s.tst 0x020 d.val = false ∧ s.dom d.val = true ∧ 3 ≤ d.val ∧
      (d.val = 22 → s.tst (calA 0x004) 5 = false)
    let stack := d.val - 4
    (comes → Does (.domainPowered d) s fun t => t.dom d.val = true ∧ (d.val < 3 ∨ 8 ≤ d.val → OnlyRegs s t [0x024]) ∧
      (4 ≤ d.val → d.val < 8 → s.season ≠ 4 → t.filling.getLsbD stack = true ∧ t.tst 0x1004 stack = false ∧
        (∀ a, a / 2 ^ 34 = stack → t.hbmB a = 0) ∧ RegsBut s t [0x024, 0x1004] ∧
        { t with bar := s.bar, hbm := s.hbm, filling := s.filling } = s)) ∧
    (¬ comes → Does (.domainPowered d) s (· = s)) ∧
    (goes → Does (.domainPowerGone d) s fun t => t.dom d.val = false ∧ (∀ a, domainOf a = d.val → t.rd a = State.reset.rd a) ∧
      (4 ≤ d.val → d.val < 8 → t.tst 0x1004 stack = false ∧ (∀ a, a / 2 ^ 34 = stack → t.hbmB a = 0) ∧
        ∀ a, a / 2 ^ 34 ≠ stack → t.hbmB a = s.hbmB a) ∧ ((d.val = 20 ∨ d.val = 21 ∨ d.val = 22) → t.hbm = s.hbm) ∧
      (d.val = 20 → ∀ n < 64, t.smu n = {}) ∧ (d.val = 22 → t.calW = s.calW ∧ t.calF = s.calF)) ∧
    (¬ goes → Does (.domainPowerGone d) s (· = s)))

/-- R346–R357, R360, R366, R388: the season commands and what each refuses, the way into WINTER by command or by AUTUMN, what
WINTER keeps, and the way out of it. The model's choices it rests on: logs 49 and 50. -/
def Obligations.SeasonChanges : Prop :=
  (∀ (s : State) p, Reached s p 0x014 →
    (s.season = 2 → Does (.seasonCmdSummer p) s (· = s)) ∧ (s.season = 1 → Does (.seasonCmdSpring p) s (· = s)) ∧
    (s.season ≠ 1 → s.season ≠ 2 → Does (.seasonCmdSummer p) s (SeasonRefused s · p 256) ∧
      Does (.seasonCmdSpring p) s (SeasonRefused s · p 256) ∧ (s.season ≠ 0 → Does (.seasonCmdWinter p) s (SeasonRefused s · p 256))) ∧
    (s.season = 1 → (summerBits s ≠ 0 → Does (.seasonCmdSummer p) s (SeasonRefused s · p (summerBits s))) ∧
      (summerBits s = 0 → Does (.seasonCmdSummer p) s fun t => t.season = 2 ∧ ChangedOver s t 2)) ∧
    (s.season = 2 → (¬ AllStopped s → Does (.seasonCmdSpring p) s (SeasonRefused s · p 1)) ∧
      (AllStopped s → Does (.seasonCmdSpring p) s fun t => t.season = 1 ∧ ChangedOver s t 1 ∧ t.mcsJob = 2 ∧
        t.tst (mcsA 0x004) 0 = true)) ∧
    ((s.season = 1 ∨ s.season = 2) →
      let bits := (!s.enginesStopped).toNat + (!s.dmaIdle).toNat * 2
      ((bits ≠ 0 → Does (.seasonCmdWinter p) s (SeasonRefused s · p bits)) ∧
      (bits = 0 → Does (.seasonCmdWinter p) s fun t => t.rd 0x010 = BitVec.ofNat 32 (5 + 16 * s.season) ∧
        t.seas = { s.seas with phase := .winterEntry, park3 := true } ∧ (∀ n < 32, (t.tx n).st = .muted))))) ∧
  (∀ (s : State),
    let u := s.smusOff
    (s.seas.phase = .winterEntry → Does .winterEntrySelfRefresh s fun t => InWinter u t 1 0 (u.tst 0x1004)) ∧
    (s.seas.phase ≠ .winterEntry → Does .winterEntrySelfRefresh s (· = s)) ∧
    (s.seas.phase = .autumn3 → s.seas.cause < 16 → s.seas.fclass < 16 → Does .autumnPowerDown s fun t =>
      InWinter u t s.seas.cause s.seas.fclass fun _ => false) ∧
    (s.seas.phase ≠ .autumn3 → Does .autumnPowerDown s (· = s))) ∧
  (∀ (s : State),
    (∀ t0, s.seas.phase = .autumn1 t0 →
      (AllStopped s → Does .autumnForceStop s fun t => t.seas = { s.seas with phase := .autumn3, park3 := true } ∧ t.now = s.now ∧
        ∀ n < 32, (t.tx n).st = .muted) ∧
      (¬ AllStopped s → Does .autumnForceStop s fun t => t.seas.phase = .autumn3 ∧ t.seas.park3 = true ∧
        (∀ n < 32, (t.tx n).st = .muted) ∧ ∀ e < 96, (t.eng e).st = .stopped ∨ (t.eng e).st = .stopping)) ∧
    ((∀ t0, s.seas.phase ≠ .autumn1 t0) → Does .autumnForceStop s (· = s))) ∧
  (∀ (s : State) p, Reached s p 0x034 →
    ((s.season = 0 ∨ s.season = 3 ∨ s.season = 5) → Does (.wake p) s (· = { s with seas := { s.seas with held := true } })) ∧
    (s.season ≠ 0 → s.season ≠ 3 → s.season ≠ 5 → Does (.wake p) s (· = s))) ∧
  (∀ (s : State),
    let starts := s.season = 0 ∧ s.seas.held = true ∧ ¬ WakeBlocked s
    let powers := s.seas.phase = .wake 0 ∧ s.seas.resetLow = false ∧ s.tst 0x00C 0 = true ∧ s.seas.refPresent = true
    (starts → Does .wakeStart s fun t => t.rd 0x010 = 4 ∧ CountsUp s t 0x03C ∧ RegsBut s t [0x010, 0x03C, 0x00C] ∧
      t.seas = { s.seas with phase := .wake 0, held := false } ∧ { t with bar := s.bar, seas := s.seas } = s) ∧
    (¬ starts → Does .wakeStart s (· = s)) ∧
    (powers → Does .wakePowerUp s fun t => t.rd 0x024 = s.rd 0x020 ||| 7 ∧ RegsBut s t [0x024] ∧
      t.seas = { s.seas with phase := .wake 1 } ∧ { t with bar := s.bar, seas := s.seas } = s) ∧
    (¬ powers → Does .wakePowerUp s (· = s)) ∧
    (s.seas.phase = .wake 1 → Does .wakeHbmReady s fun t => t.seas = { s.seas with phase := .wake 2 } ∧ RegsBut s t [0x1004] ∧
      ∀ k < 4, (s.dom (4 + k) = false → t.tst 0x1004 k = s.tst 0x1004 k ∧ t.filling.getLsbD k = s.filling.getLsbD k) ∧
        (s.dom (4 + k) = true → s.tst 0x038 k = true → t.tst 0x1004 k = true ∧ ∀ a, a / 2 ^ 34 = k → t.hbmB a = s.hbmB a) ∧
        (s.dom (4 + k) = true → s.tst 0x038 k = false → t.tst 0x1004 k = false ∧ t.filling.getLsbD k = true ∧
          ∀ a, a / 2 ^ 34 = k → t.hbmB a = 0)) ∧
    (s.seas.phase ≠ .wake 1 → Does .wakeHbmReady s (· = s)) ∧
    (let u := s.advanceWtc 1280000
     let kept := u.tst 0x040 4 = true ∧ u.tst 0x038 ((u.rd64 0x048).toNat % 2 ^ 36 / 2 ^ 34) = true
     s.seas.phase = .wake 2 → Locked s → Does .wakeSpring s fun t => t.rd 0x010 = BitVec.ofNat 32 (1 + 16 * u.season) ∧
       t.season = 1 ∧ t.seas = { u.seas with phase := .none } ∧ t.mcsJob = 2 ∧ t.tst (mcsA 0x004) 0 = true ∧ t.tst 0x00C 1 = false ∧
       (t.tst 0x040 4 = true ↔ kept) ∧ (kept → t.rdf 0x040 0 3 = 3) ∧ (¬ kept → t.rdf 0x040 0 3 = 1) ∧
       { t with bar := u.bar, outbox := u.outbox, seas := u.seas, mcsJob := u.mcsJob } = u) ∧
    (s.seas.phase ≠ .wake 2 → Does .wakeSpring s (· = s)) ∧
    (∀ r : BitVec 16, Does (.aonSensorSample r) s fun t => t = if s.season = 0 then { s with seas := { s.seas with aon := r.toInt } } else s))

/-- R379–R385, R388: a sample whose sensors agree shows each reading, TMAX, the thresholds and the duty; at 120 °C the module goes
into AUTUMN, at 125 °C in AUTUMN it stops at once; SUSPECT is cleared. The model's choices it rests on: log 53. -/
def Obligations.ThermalManager : Prop :=
  (∀ (s : State) (rs : List (BitVec 16)), rs.length = 48 →
    (s.dom 1 = false → Does (.thermalSample rs) s (· = s)) ∧
    (let u := match s.thist with | [] => s | (last, _) :: _ => s.advanceTo (last + if s.tst (thmA 0x000) 2 then 80000 else 1600000)
     let r := fun i : Nat => (rs.getD i 0).toInt
     let on := fun i : Nat => i < 48 ∧ (i < 12 ∨ (12 ≤ i ∧ i < 36 ∧ u.dom (8 + (i - 12) / 3) = true) ∨
       (36 ≤ i ∧ u.dom (16 + (i - 36) / 3) = true))
     s.dom 1 = true → (∀ i < 48, u.tst (thmA (0x100 + 4 * i)) 31 = false) → (∀ i, on i → -400 ≤ r i ∧ r i < 1200) →
     (∀ i j, on i → on j → (r i - r j).natAbs ≤ 120) → ∀ top, on top → (∀ i, on i → r i ≤ r top) → (∀ i < top, on i → r i < r top) →
     Does (.thermalSample rs) s fun t =>
       (∀ i < 48, (on i → t.rd (thmA (0x100 + 4 * i)) = (rs.getD i 0).zeroExtend 32) ∧
         (¬ on i → t.rd (thmA (0x100 + 4 * i)) = 0x40000000)) ∧
       t.rd (thmA 0x008) = BitVec.ofNat 32 (top * 2 ^ 16 + (rs.getD top 0).toNat) ∧
       t.tst (thmA 0x000) 0 = overHysteresis (u.tst (thmA 0x000) 0) (r top) 950 920 ∧
       t.tst (thmA 0x000) 1 = overHysteresis (u.tst (thmA 0x000) 1) (r top) 1050 1020 ∧
       t.tst (thmA 0x000) 2 = decide (900 ≤ r top) ∧
       (t.tst (thmA 0x000) 1 = false → t.rd (thmA 0x00C) = 256) ∧
       (u.tst (thmA 0x000) 0 = false → t.tst (thmA 0x000) 0 = true → t.tst (thmA 0x000) 3 = true) ∧
       (r top < 950 → t.faults = u.faults) ∧ t.season = u.season ∧ t.hbm = u.hbm ∧ t.engs = u.engs ∧
       t.thist = ((u.now, r top) :: u.thist).take 8)) ∧
  (∀ (s : State) (c : BitVec 16), s.dom 1 = true → s.thist = [] → (∀ i < 48, s.tst (thmA (0x100 + 4 * i)) 31 = false) →
    1200 ≤ c.toInt → c.toInt ≤ 1500 →
    ((s.season = 1 ∨ s.season = 2) → Does (.thermalSample (List.replicate 48 c)) s fun t => t.season = 3 ∧ t.seas.cause = 3 ∧
      t.seas.phase = .autumn1 s.now) ∧
    (s.season = 3 → 1250 ≤ c.toInt → Does (.thermalSample (List.replicate 48 c)) s fun t => t.season = 0 ∧ t.rdf 0x038 28 4 = 4 ∧
      t.engs = [] ∧ t.hbm = [])) ∧
  (∀ s p (i : Fin 48), let a := thmA (0x100 + 4 * i.val)
    Reached s p a → Does (.suspectClear p i) s fun t => t.tst a 31 = false ∧ t.rdf a 16 2 = 0 ∧ OnlyRegs s t [a])

/-- R390–R400: the collector latches a class's first fault with its source and Full Time, counts further ones and marks them lost,
raises a latched class one level, and reacts by level; ACK and the end of the fault state. The model's choices it rests on:
log 54. -/
def Obligations.FaultCollector : Prop :=
  (∀ (s : State), s.faults = [] → Does .faultArrival s (· = s)) ∧
  (∀ (s : State) f rest, s.faults = f :: rest → s.dom 1 = false → Does .faultArrival s (· = { s with faults := rest })) ∧
  (∀ (s : State) f rest, s.faults = f :: rest → s.dom 1 = true → f.cls < 16 → f.lvl ≤ 4 → f.kind < 16 → f.idx < 256 → f.info < 4096 →
    let a := fltA (0x100 + 16 * f.cls)
    let was := s.tst (fltA 0x004) f.cls
    let lvl := if was = true ∧ s.tst (fltA 0x010) f.cls = true then min 4 (f.lvl + 1) else f.lvl
    let latches := fun t : State => t.tst (fltA 0x004) f.cls = true ∧
      (was = false → t.rd a = BitVec.ofNat 32 (lvl * 2 ^ 29 + lvl * 2 ^ 26 + f.kind * 2 ^ 20 + f.idx * 2 ^ 12 + f.info) ∧
        t.rd64 (a + 4) = f.full) ∧
      (was = true → t.tst (fltA 0x008) f.cls = true ∧ t.rdf a 26 3 = max lvl (s.rdf a 26 3) ∧ t.rdf a 0 26 = s.rdf a 0 26 ∧
        t.rdf a 29 3 = s.rdf a 29 3 ∧ t.rd64 (a + 4) = s.rd64 (a + 4)) ∧
      CountsUp s t (a + 12) ∧ t.rdf (fltA 0x000) 4 3 = lvl ∧ t.rdf (fltA 0x000) 8 4 = f.cls ∧
      (s.tst (fltA 0x014) lvl = true → Irq s t 0)
    (lvl ≤ 1 → Does .faultArrival s fun t => latches t ∧ t.faults = rest ∧ t.quietFrom = (if lvl = 1 then s.now else s.quietFrom) ∧
      RegsBut s t [a, a + 4, a + 8, a + 12, fltA 0x000, fltA 0x004, fltA 0x008, fltA 0x01C, 0x4000] ∧
      { t with bar := s.bar, faults := s.faults, quietFrom := s.quietFrom, outbox := s.outbox } = s) ∧
    ((lvl = 2 ∨ lvl = 3) → Does .faultArrival s fun t => latches t ∧ t.quietFrom = s.now ∧
      t.rdf (fltA 0x000) 0 3 = max lvl (s.rdf (fltA 0x000) 0 3) ∧
      (∀ e, ((f.kind = 1 ∨ f.kind = 3) ∧ e = f.idx) ∨ ((f.kind = 2 ∨ f.kind = 4) ∧ e = 64 + f.idx) → s.midIssue e = false →
        (t.eng e).hold.getLsbD f.cls = true ∧ ((s.eng e).st ≠ .stopped → (t.eng e).st = .stopping) ∧
        ((s.eng e).st = .stopped → (t.eng e).st = .stopped)) ∧
      (f.kind = 5 → f.idx < 4 → t.tst (dmaA f.idx 0x004) 8 = true) ∧
      (lvl = 2 → f.kind ≠ 1 → f.kind ≠ 2 → f.kind ≠ 3 → f.kind ≠ 4 → t.engs = s.engs) ∧
      (lvl = 3 → t.seas.park3 = true ∧ ∀ n < 32, (t.tx n).st = .muted)) ∧
    (lvl = 4 → (s.season = 1 ∨ s.season = 2) → Does .faultArrival s fun t => latches t ∧ t.season = 3 ∧ t.seas.cause = 2 ∧
      t.seas.fclass = f.cls ∧ t.seas.phase = .autumn1 s.now)) ∧
  (∀ s p (classes : BitVec 16), Reached s p (fltA 0x004) → Does (.faultAck p classes) s fun t =>
    (∀ c < 16, (classes.getLsbD c = true → t.tst (fltA 0x004) c = false ∧ t.rd (fltA (0x100 + 16 * c)) = 0 ∧
        t.rd64 (fltA (0x104 + 16 * c)) = 0) ∧
      (classes.getLsbD c = false → t.tst (fltA 0x004) c = s.tst (fltA 0x004) c ∧
        t.rd (fltA (0x100 + 16 * c)) = s.rd (fltA (0x100 + 16 * c)))) ∧
    (∀ e < 96, t.eng e = { s.eng e with hold := (s.eng e).hold &&& ~~~classes }) ∧ (∀ e, 96 ≤ e → t.eng e = s.eng e) ∧
    { t with bar := s.bar, engs := s.engs } = s) ∧
  (∀ (s : State),
    let u := s.advanceTo (s.quietFrom + 1600 * max (s.rdf (fltA 0x00C) 0 16) ((s.now - s.quietFrom + 1599) / 1600))
    (s.rdf (fltA 0x000) 0 3 = 0 → Does .faultStateEnd s (· = s)) ∧
    (s.rdf (fltA 0x000) 0 3 ≠ 0 → Does .faultStateEnd s fun t => t.rdf (fltA 0x000) 0 3 = 0 ∧ CountsUp u t (fltA 0x018) ∧
      (u.season ≠ 3 → u.season ≠ 5 → t.seas.park3 = false ∧ ∀ n < 32, (u.tx n).st = .muted → (t.tx n).st = .idle) ∧
      (u.season = 3 ∨ u.season = 5 → t.seas = u.seas ∧ ∀ n < 32, (u.tx n).st = .muted → (t.tx n).st = .muted) ∧
      (u.tst (fltA 0x014) 5 = true → Irq u t 0) ∧ t.engs = u.engs ∧ t.smus = u.smus ∧ t.hbm = u.hbm))

namespace Sys2Proof.Machine

/-- What the Chain Port takes as a frame of its length (R411, R413): the select is low, and the edges are counted right. -/
def ChainTakes (s : State) (count : Nat) : Prop :=
  s.seas.resetLow = false ∧ s.chn.selected = true ∧ (if s.chn.total = 0 then s.chn.len ≤ count else count = s.chn.total)

/-- The state in which a chain command acts: the frame has ended, and what it leaves open of its bits is drawn. -/
def FrameEnded (s m : State) : Prop :=
  { m with chn := s.chn, fresh := s.fresh } = s ∧ { m.chn with shift := s.chn.shift } = { s.chn with selected := false }

/-- The port answers the next frame with a status alone (R414). -/
def Answers (s t : State) (status : BitVec 8) : Prop :=
  { t.chn with shift := s.chn.shift } = { s.chn with selected := false, status := status, data := [] }

/-- An access of a chain command is done, and its response waits for the command's end (R414). -/
def ChainDone (t : State) (addr : Nat) (status : BitVec 8) (ws : List Word) (x : State) : Prop :=
  let adr := BitVec.ofNat 32 addr
  t = { x with chn := { x.chn with busy := true, addr := adr, pending := x.chn.pending ++ [(status, adr, ws)] } }

/-- A Card Identity Record with its MAGIC and its CHECK (R420), and the newer of two (R421). -/
def RecordGood (r : List Byte) : Prop := leAt r 0 4 = 0x31524943 ∧ leAt r 28 4 = (crc32 (r.take 28)).toNat
def RecordNewer (x y : List Byte) : Prop :=
  1 ≤ (leAt x 14 2 + 65536 - leAt y 14 2) % 65536 ∧ (leAt x 14 2 + 65536 - leAt y 14 2) % 65536 ≤ 32767

/-- One touchdown counts, or is held until a record is loaded (R422). -/
def TouchdownCounts (s t : State) : Prop :=
  let count := (s.rd (serA 0x130)).toNat
  (s.tst (serA 0x108) 5 = true → count < 2 ^ 32 - 1 → t.rd (serA 0x130) = s.rd (serA 0x130) + 1 ∧
    ((count + 1) % 256 = 0 → t.card.wbDue = true ∧ t.tst (serA 0x108) 2 = true) ∧ ((count + 1) % 256 ≠ 0 → t.card = s.card)) ∧
  (s.tst (serA 0x108) 5 = false → t.rdf (serA 0x108) 16 8 = min 255 (s.rdf (serA 0x108) 16 8 + 1) ∧
    t.rd (serA 0x130) = s.rd (serA 0x130) ∧ t.card = s.card)

/-- Three address bytes of a flash command, most significant first (R419). -/
def flash24 (a : Nat) : List Byte := [BitVec.ofNat 8 (a / 65536), BitVec.ofNat 8 (a / 256), BitVec.ofNat 8 a]

end Sys2Proof.Machine

/-- R410–R416: the Chain Port loads a response as the select falls; NOP and LEN80 answer at once; READ, WRITE and READ_FIXED do
their accesses and answer at the command's end; other frames are discarded or refused. The model's choices it rests on: log
64. -/
def Obligations.ChainPort : Prop :=
  (∀ (s : State),
    let len := s.rdf (serA 0x000) 0 13
    let pads := if len < 80 then len - 16 else (len - 48) % 32
    let shows := fun (r : BitVec 8 × Word × List Word) (left : List (BitVec 8 × Word × List Word)) (t : State) =>
      (∃ b, t.outbox = s.outbox ++ [.chain b] ∧ t.chn.shift = b ∧
        let body := if len < 80 then msbBits r.1
          else msbBits r.1 ++ msbBits r.2.1 ++ (List.range ((len - 48) / 32)).flatMap fun i => msbBits (r.2.2.getD i 0)
        b.drop pads = body ++ msbBits (crc8 body)) ∧
      t.chn.selected = true ∧ t.chn.len = len ∧ t.chn.total = s.rdf (serA 0x004) 0 20 ∧ t.chn.pending = left ∧
      { t with chn := s.chn, outbox := s.outbox, fresh := s.fresh } = s
    ((s.seas.resetLow = true ∨ s.chn.selected = true) → Does .chainSelectFall s (· = s)) ∧
    (s.seas.resetLow = false → s.chn.selected = false → len ≤ 4096 →
      (∀ r l, s.chn.pending = r :: l → (l ≠ [] ∨ s.chn.busy = false) → Does .chainSelectFall s (shows r l)) ∧
      (∀ r, s.chn.pending = [r] → s.chn.busy = true → Does .chainSelectFall s (shows (0x40, 0, []) [r])) ∧
      (s.chn.pending = [] → s.chn.refused = true → Does .chainSelectFall s fun t => shows (0x08, 0, []) [] t ∧ t.chn.refused = false) ∧
      (s.chn.pending = [] → s.chn.refused = false → Does .chainSelectFall s (shows (s.chn.status, s.chn.addr, s.chn.data) [])))) ∧
  (∀ (s : State) (count : BitVec 20), ChainTakes s count.toNat → s.chn.busy = false →
    Does (.nop count) s (fun t => Answers s t 0x80 ∧ { t with chn := s.chn, fresh := s.fresh } = s) ∧
    Does (.len80 count) s (fun t => Answers s t 0x80 ∧ t.rd (serA 0x000) = 80 ∧ RegsBut s t [serA 0x000] ∧
      { t with chn := s.chn, fresh := s.fresh, bar := s.bar } = s) ∧
    (∀ addr : Word, let n := (s.chn.len - 48) / 32
      let answers := fun (words : Nat) (t : State) => t.chn.busy = true ∧ t.chn.selected = false ∧ ∃ st adr ws,
        t.chn.pending = s.chn.pending ++ [(st, adr, ws)] ∧ ws.length = words ∧ st.getLsbD 7 = true
      80 ≤ s.chn.len → Does (.read count addr) s (answers n) ∧ Does (.readFixed count addr) s (answers n) ∧
        ∀ data, data.length = n → Does (.write count addr data) s (answers 0)) ∧
    (∀ (addr v : Word), 80 ≤ s.chn.len → s.chn.len < 112 → s.season ≠ 0 → s.season ≠ 4 → s.season ≠ 5 →
      Does (.read count addr) s (fun t => ∃ m, FrameEnded s m ∧
        ChainDone t (addr.toNat + 4) 0x80 [(m.busRead .chain addr.toNat).1] (m.busRead .chain addr.toNat).2) ∧
      Does (.write count addr [v]) s (fun t => ∃ m, FrameEnded s m ∧
        ChainDone t (addr.toNat + 4) 0x80 [] (m.busWrite .chain addr.toNat v)) ∧
      Does (.readFixed count addr) s fun t => ∃ m, FrameEnded s m ∧
        ChainDone t (addr.toNat + 4) 0x80 [(m.busRead .chain addr.toNat).1] (m.busRead .chain addr.toNat).2)) ∧
  (∀ (s : State) (count : BitVec 20) (addr : Word) i, s.seas.resetLow = false → s.chn.selected = true →
    (i = .nop count ∨ i = .len80 count ∨ i = .read count addr ∨ i = .readFixed count addr) →
    (¬ ChainTakes s count.toNat → Does i s fun t => t.tst (serA 0x008) 1 = true ∧
      t.rd (serA 0x00C) = BitVec.ofNat 32 count.toNat ∧ CountsUp s t (serA 0x010) ∧ Answers s t 2 ∧
      RegsBut s t [serA 0x008, serA 0x00C, serA 0x010, 0x4014]) ∧
    (ChainTakes s count.toNat → s.chn.busy = true → Does i s fun t => t.tst (serA 0x008) 4 = true ∧ t.chn.refused = true ∧
      t.chn.pending = s.chn.pending ∧ RegsBut s t [serA 0x008, 0x4014])) ∧
  (∀ (s : State) (count : BitVec 20) (frame : List Bool), ChainTakes s count.toNat → 80 ≤ s.chn.len → frame.length = s.chn.len →
    let body := frame.drop ((s.chn.len - 48) % 32)
    let sent := body.drop (body.length - 8)
    let crc := msbBits (crc8 (body.take (body.length - 8)))
    (sent ≠ crc → s.chn.busy = false → Does (.chainFrameDiscard count frame) s fun t => t.tst (serA 0x008) 2 = true ∧
      t.rd (serA 0x00C) = BitVec.ofNat 32 count.toNat ∧ CountsUp s t (serA 0x010) ∧ Answers s t 4) ∧
    (sent = crc → (∀ c : BitVec 8, c ≠ 0 → c ≠ 1 → c ≠ 2 → c ≠ 3 → c ≠ 15 → body.take 8 = msbBits c → s.chn.busy = false →
      Does (.chainFrameDiscard count frame) s fun t => t.tst (serA 0x008) 4 = true ∧ Answers s t 8))) ∧
  (∀ s : State, Does .chainCommandDone s (· = { s with chn := { s.chn with busy := false } })) ∧
  (∀ (s : State) p (v : Word), Reached s p (serA 0x000) →
    let len := v.toNat % 2 ^ 13
    (16 ≤ len → len ≤ 4096 → Does (.chnLenWrite p v) s fun t => t.rdf (serA 0x000) 0 13 = len ∧ t.chn = s.chn ∧
      OnlyRegs s t [serA 0x000]) ∧
    ((len < 16 ∨ 4096 < len) → Does (.chnLenWrite p v) s (· = s.cfgErr p)))

/-- R356, R417–R424: transactions of the Card Port, the Card Identity Record, its touchdowns and write-backs, and the flash window
with its queue. The model's choices it rests on: logs 50 and 63. -/
def Obligations.CardPort : Prop :=
  (∀ (s : State) p, Reached s p (serA 0x100) →
    (s.rdf (serA 0x104) 8 2 % 2 = 1 → s.tst (serA 0x108) 0 = false → Does (.cardGo p) s fun t => t.tst (serA 0x108) 0 = true ∧
      t.card = { s.card with goWaits := true } ∧ RegsBut s t [serA 0x108] ∧ { t with bar := s.bar, card := s.card } = s) ∧
    ((s.rdf (serA 0x104) 8 2 % 2 = 0 ∨ s.tst (serA 0x108) 0 = true) → Does (.cardGo p) s (· = s.cfgErr p)) ∧
    Does (.cirLoad p) s (fun t => t.card = { s.card with cirLoading := true } ∧ t.tst (serA 0x108) 2 = true ∧
      RegsBut s t [serA 0x108] ∧ { t with bar := s.bar, card := s.card } = s) ∧
    (s.tst (serA 0x108) 5 = true → Does (.cirSave p) s fun t => t.card = { s.card with wbDue := true } ∧
      t.tst (serA 0x108) 2 = true ∧ RegsBut s t [serA 0x108] ∧ { t with bar := s.bar, card := s.card } = s) ∧
    (s.tst (serA 0x108) 5 = false → Does (.cirSave p) s (· = s)) ∧ Does (.td p) s (TouchdownCounts s)) ∧
  (∀ (s : State),
    let wakes := (s.season = 0 ∨ s.season = 3 ∨ s.season = 5) ∧ s.tst 0x030 1 = true
    Does .touchdown s fun t => (wakes → t.seas = { s.seas with held := true }) ∧ (¬ wakes → t.seas = s.seas) ∧
      (s.season ≠ 0 → s.dom 1 = true → TouchdownCounts s t) ∧ ((s.season = 0 ∨ s.dom 1 = false) → { t with seas := s.seas } = s)) ∧
  (∀ (s : State) (miso : List Bool),
    let len := s.rdf (serA 0x104) 12 12
    let n := if len = 0 then 4096 else len
    let bitOf := fun (s : State) (base i : Nat) => s.tst (serA (base + i / 32 * 4)) (i / 8 % 4 * 8 + (7 - i % 8))
    (s.card.goWaits = false → Does (.cardTransactionDone miso) s (· = s)) ∧
    (s.card.goWaits = true → Does (.cardTransactionDone miso) s fun t => t.card = { s.card with goWaits := false } ∧
      .cardBits (s.rdf (serA 0x104) 8 2) ((List.range n).map (bitOf s 0x200)) ∈ t.outbox ∧
      (∀ i < n, bitOf t 0x400 i = miso.getD i false) ∧ t.tst (serA 0x108) 0 = false ∧ t.tst (serA 0x108) 1 = true ∧ Irq s t 165 ∧
      (∀ a, (a < serA 0x400 ∨ serA 0x600 ≤ a) → a ≠ serA 0x108 → a ≠ 0x4014 → t.rd a = s.rd a))) ∧
  (∀ (s : State) (a b : List Byte), a.length = 32 → b.length = 32 →
    (s.card.cirLoading = false → Does (.cirLoadDone a b) s (· = s)) ∧
    (s.card.cirLoading = true →
      (¬ RecordGood a → ¬ RecordGood b → Does (.cirLoadDone a b) s fun t => t.card = { s.card with cirLoading := false } ∧
        t.tst (serA 0x108) 5 = false ∧ t.tst (serA 0x108) 8 = true ∧ Raises s t 12 0 8 0 ∧ Irq s t 165 ∧
        t.rd (serA 0x130) = s.rd (serA 0x130)) ∧
      (∀ r copy, (copy = false ∧ r = a ∧ RecordGood a ∧ (¬ RecordGood b ∨ ¬ RecordNewer b a)) ∨
          (copy = true ∧ r = b ∧ RecordGood b ∧ (¬ RecordGood a ∨ RecordNewer b a)) → Does (.cirLoadDone a b) s fun t =>
        let held := s.rdf (serA 0x108) 16 8
        let seq := BitVec.ofNat 16 (leAt r 14 2)
        t.card = { s.card with cirLoading := false, copyB := copy, seqNo := seq } ∧
        t.rd64 (serA 0x120) = BitVec.ofNat 64 (leAt r 4 8) ∧ t.rd (serA 0x128) = BitVec.ofNat 32 (leAt r 12 2) ∧
        t.rd (serA 0x12C) = BitVec.ofNat 32 (leAt r 16 4) ∧
        (leAt r 20 4 + held < 2 ^ 32 → t.rd (serA 0x130) = BitVec.ofNat 32 (leAt r 20 4 + held)) ∧
        t.tst (serA 0x108) 5 = true ∧ t.tst (serA 0x108) 4 = copy ∧ t.rdf (serA 0x108) 16 8 = 0 ∧
        (leAt r 16 4 ≠ 0 → leAt r 20 4 + held < 2 ^ 32 → (t.tst (serA 0x108) 7 = true ↔ leAt r 16 4 ≤ leAt r 20 4 + held))))) ∧
  (∀ (s : State),
    let writes := s.card.wbDue = true ∧ s.card.wbBusy = false ∧ s.tst (serA 0x108) 5 = true
    (writes → Does .cirWriteback s fun t => t.card = { s.card with wbDue := false, wbBusy := true } ∧ (∃ r,
      t.outbox = s.outbox ++ [.cir (!s.card.copyB) r] ∧ r.length = 32 ∧ RecordGood r ∧ leAt r 4 8 = (s.rd64 (serA 0x120)).toNat ∧
      leAt r 12 2 = s.rdf (serA 0x128) 0 16 ∧ leAt r 14 2 = (s.card.seqNo + 1).toNat ∧ leAt r 16 4 = (s.rd (serA 0x12C)).toNat ∧
      leAt r 20 4 = (s.rd (serA 0x130)).toNat) ∧ t.tst (serA 0x108) 2 = true ∧ RegsBut s t [serA 0x108]) ∧
    (¬ writes → Does .cirWriteback s (· = s)) ∧
    (∀ good, s.card.wbBusy = false → Does (.cirWritebackDone good) s (· = s)) ∧
    (s.card.wbBusy = true → Does (.cirWritebackDone true) s (fun t => t.tst (serA 0x108) 4 = !s.card.copyB ∧
        t.card = { s.card with wbBusy := false, copyB := !s.card.copyB, seqNo := s.card.seqNo + 1 } ∧ t.faults = s.faults ∧
        RegsBut s t [serA 0x108]) ∧
      Does (.cirWritebackDone false) s (fun t => t.card = { s.card with wbBusy := false } ∧ t.tst (serA 0x108) 3 = true ∧
        Raises s t 12 0 8 0 ∧ Irq s t 165))) ∧
  (∀ (s : State) p (w : BitVec 13) (v : Word),
    let a := s.rdf (serA 0x110) 0 9 * 2 ^ 15 + 4 * w.toNat
    let q := s.card.xq
    Reached s p (serA (0x8000 + 4 * w.toNat)) →
      (s.tst (serA 0x10C) 0 = false → Does (.xipWrite p w v) s (· = s.cfgErr p)) ∧
      (s.tst (serA 0x10C) 0 = true → 64 ≤ q.length → Does (.xipWrite p w v) s fun t => t.tst (serA 0x118) 30 = true ∧
        Raises s t 14 0 (pathKind p).1 (pathKind p).2 ∧ t.card = s.card ∧ RegsBut s t [serA 0x118]) ∧
      (s.tst (serA 0x10C) 0 = true → q.length < 64 → s.card.xBusy ≠ none → Does (.xipWrite p w v) s fun t =>
        t.card = { s.card with xq := q ++ [.word a v] } ∧ { t with card := s.card } = s) ∧
      (s.tst (serA 0x10C) 0 = true → q = [] → s.card.xBusy = none → Does (.xipWrite p w v) s fun t =>
        t.outbox = s.outbox ++ [.flash [0x06], .flash (0x02 :: flash24 a ++ bytesOf 4 v.toNat)] ∧
        t.card = { s.card with xBusy := some (s.now, false), xq := [] } ∧ { t with card := s.card, outbox := s.outbox } = s) ∧
      ((q ≠ [] ∨ s.card.xBusy ≠ none) → ∀ flash, Does (.xipRead p w flash) s (· = s)) ∧
      (q = [] → s.card.xBusy = none → ∀ flash, Does (.xipRead p w flash) s fun t =>
        t = { s with outbox := s.outbox ++ [.flash (0x03 :: flash24 a), .readData p flash] })) ∧
  (∀ (s : State) p (v : Word), Reached s p (serA 0x114) →
    let kind := v.toNat / 2 ^ 30
    let a := v.toNat % 2 ^ 24
    let q := s.card.xq
    ((kind = 0 ∨ kind = 3) → Does (.xipErase p v) s fun t => t.tst (serA 0x118) 30 = true ∧
      Raises s t 15 0 (pathKind p).1 (pathKind p).2 ∧ t.card = s.card ∧ RegsBut s t [serA 0x118]) ∧
    ((kind = 1 ∨ kind = 2) → 64 ≤ q.length → Does (.xipErase p v) s fun t => t.tst (serA 0x118) 30 = true ∧
      Raises s t 14 0 (pathKind p).1 (pathKind p).2 ∧ t.card = s.card ∧ RegsBut s t [serA 0x118]) ∧
    ((kind = 1 ∨ kind = 2) → q.length < 64 → s.card.xBusy ≠ none → Does (.xipErase p v) s fun t =>
      t.card = { s.card with xq := q ++ [.erase (BitVec.ofNat 2 kind) a] } ∧ { t with card := s.card } = s) ∧
    ((kind = 1 ∨ kind = 2) → q = [] → s.card.xBusy = none → Does (.xipErase p v) s fun t =>
      t.outbox = s.outbox ++ [.flash [0x06], .flash ((if kind = 1 then 0x20 else 0xD8) :: flash24 a)] ∧
      t.card = { s.card with xBusy := some (s.now, true), xq := [] } ∧ { t with card := s.card, outbox := s.outbox } = s)) ∧
  (∀ (s : State),
    (s.card.xBusy = none → (∀ wip, Does (.xipStatusPoll wip) s (· = s)) ∧ Does .xipTimeout s (· = s)) ∧
    (∀ t0 erase, s.card.xBusy = some (t0, erase) →
      Does (.xipStatusPoll true) s (· = { s with outbox := s.outbox ++ [.flash [0x05]] }) ∧
      (s.card.xq = [] → Does (.xipStatusPoll false) s fun t => t.card = { s.card with xBusy := none } ∧
        t.outbox = s.outbox ++ [.flash [0x05]] ∧ { t with card := s.card, outbox := s.outbox } = s) ∧
      (let u := s.advanceTo (t0 + if erase then 6400000000 else 16000000)
       Does .xipTimeout s fun t => t.card = { u.card with xBusy := none, xq := [] } ∧ t.tst (serA 0x118) 31 = true ∧
        t.tst (serA 0x118) 30 = true ∧ Raises u t 12 0 8 0 ∧ Irq u t 165)))
end

