-- ==== Sys2Proof/Laws/Table.lean ====
section
/-! SUPPORT. The laws of the sparse table: what a key reads after a write, and that writes keep the canonical form. The
read laws hold of every table, canonical or not. -/

namespace Sys2Proof.Machine

variable {α : Type} (d : Nat → α)

theorem tget_tput_self (t : Table α) (k : Nat) (v : α) : tget d (tput k v t) k = v := by
  induction t with
  | nil => simp [tput, tget]
  | cons e t ih =>
    obtain ⟨j, w⟩ := e
    unfold tput
    split
    · simp [tget]
    · split
      · simp [tget]
      · rename_i h; simp [tget, Ne.symm h, ih]

theorem tget_tput_ne (t : Table α) {k k' : Nat} (v : α) (h : k' ≠ k) : tget d (tput k v t) k' = tget d t k' := by
  induction t with
  | nil => simp [tput, tget, Ne.symm h]
  | cons e t ih =>
    obtain ⟨j, w⟩ := e
    unfold tput
    split
    · simp [tget, Ne.symm h]
    · split
      · rename_i hj; subst hj; simp [tget, Ne.symm h]
      · simp [tget, ih]

theorem tget_tdel_self (t : Table α) (k : Nat) : tget d (tdel k t) k = d k := by
  induction t with
  | nil => rfl
  | cons e t ih =>
    obtain ⟨j, w⟩ := e
    by_cases h : j = k
    · simpa [tdel, h] using ih
    · have : tget d ((j, w) :: tdel k t) k = d k := by simp [tget, h, ih]
      simpa [tdel, h] using this

theorem tget_tdel_ne (t : Table α) {k k' : Nat} (h : k' ≠ k) : tget d (tdel k t) k' = tget d t k' := by
  induction t with
  | nil => rfl
  | cons e t ih =>
    obtain ⟨j, w⟩ := e
    by_cases hj : j = k
    · have : tget d (tdel k t) k' = tget d ((j, w) :: t) k' := by simp [tget, hj, Ne.symm h, ih]
      simpa [tdel, hj] using this
    · have : tget d ((j, w) :: tdel k t) k' = tget d ((j, w) :: t) k' := by simp [tget, ih]
      simpa [tdel, hj] using this

variable [DecidableEq α]

@[simp] theorem tget_tset_self (t : Table α) (k : Nat) (v : α) : tget d (tset d t k v) k = v := by
  unfold tset
  split
  · rename_i h; rw [tget_tdel_self, h]
  · exact tget_tput_self d t k v

theorem tget_tset_ne (t : Table α) {k k' : Nat} (v : α) (h : k' ≠ k) : tget d (tset d t k v) k' = tget d t k' := by
  unfold tset
  split
  · exact tget_tdel_ne d t h
  · exact tget_tput_ne d t v h

/-- A read after a write, in one equation. -/
theorem tget_tset (t : Table α) (k k' : Nat) (v : α) :
    tget d (tset d t k v) k' = if k' = k then v else tget d t k' := by
  split
  · rename_i h; rw [h, tget_tset_self]
  · rename_i h; exact tget_tset_ne d t v h

/-- The canonical form, said of the whole list: keys rise, and no entry stands at its default. -/
theorem tableWf_iff (t : Table α) :
    tableWf d t = true ↔ t.Pairwise (fun x y => x.1 < y.1) ∧ ∀ e ∈ t, e.2 ≠ d e.1 := by
  induction t with
  | nil => simp [tableWf]
  | cons e t ih =>
    obtain ⟨k, v⟩ := e
    cases t with
    | nil => simp [tableWf]
    | cons e2 t =>
      obtain ⟨j, w⟩ := e2
      have hstep : tableWf d ((k, v) :: (j, w) :: t) = true ↔ v ≠ d k ∧ k < j ∧ tableWf d ((j, w) :: t) = true := by
        simp [tableWf, and_assoc]
      rw [hstep, ih]
      simp only [List.pairwise_cons, List.mem_cons, forall_eq_or_imp]
      constructor
      · rintro ⟨hv, hk, ⟨hj, ht⟩, hw, hd⟩
        exact ⟨⟨⟨hk, fun x hx => lt_trans hk (hj x hx)⟩, hj, ht⟩, hv, hw, hd⟩
      · rintro ⟨⟨⟨hk, _⟩, hj, ht⟩, hv, hw, hd⟩
        exact ⟨hv, hk, ⟨hj, ht⟩, hw, hd⟩

theorem tableWf_filter (t : Table α) (p : Nat × α → Bool) (h : tableWf d t = true) : tableWf d (t.filter p) = true := by
  rw [tableWf_iff] at h ⊢
  exact ⟨h.1.filter p, fun e he => h.2 e (List.mem_filter.mp he).1⟩

omit [DecidableEq α] in
theorem mem_tput {t : Table α} {k : Nat} {v : α} {e : Nat × α} (h : e ∈ tput k v t) : e = (k, v) ∨ e ∈ t := by
  induction t with
  | nil => simpa [tput] using h
  | cons x t ih =>
    obtain ⟨j, w⟩ := x
    unfold tput at h
    split at h
    · simpa using h
    · split at h
      · rcases List.mem_cons.mp h with h | h
        · exact .inl h
        · exact .inr (List.mem_cons_of_mem _ h)
      · rcases List.mem_cons.mp h with h | h
        · exact .inr (h ▸ List.mem_cons_self)
        · exact (ih h).imp id (List.mem_cons_of_mem _)

omit [DecidableEq α] in
theorem pairwise_tput {t : Table α} {k : Nat} {v : α} (h : t.Pairwise (fun x y => x.1 < y.1)) :
    (tput k v t).Pairwise (fun x y => x.1 < y.1) := by
  induction t with
  | nil => simp [tput]
  | cons x t ih =>
    obtain ⟨j, w⟩ := x
    obtain ⟨hj, ht⟩ := List.pairwise_cons.mp h
    unfold tput
    split
    · rename_i hk
      refine List.pairwise_cons.mpr ⟨fun e he => ?_, h⟩
      rcases List.mem_cons.mp he with rfl | he
      · exact hk
      · exact lt_trans hk (hj e he)
    · split
      · rename_i hk; subst hk; exact List.pairwise_cons.mpr ⟨hj, ht⟩
      · rename_i h1 h2
        refine List.pairwise_cons.mpr ⟨fun e he => ?_, ih ht⟩
        rcases mem_tput he with rfl | he
        · exact lt_of_le_of_ne (not_lt.mp h1) (Ne.symm h2)
        · exact hj e he

/-- A write keeps the canonical form. -/
theorem tableWf_tset (t : Table α) (k : Nat) (v : α) (h : tableWf d t = true) : tableWf d (tset d t k v) = true := by
  unfold tset
  split
  · exact tableWf_filter d t _ h
  · rename_i hv
    rw [tableWf_iff] at h ⊢
    refine ⟨pairwise_tput h.1, fun e he => ?_⟩
    rcases mem_tput he with rfl | he
    · exact hv
    · exact h.2 e he

end Sys2Proof.Machine
end

