-- ==== Sys2Proof/Laws/State.lean ====
section
/-! SUPPORT. What each named update of the state leaves unchanged, field by field, and what the updated instance then
reads. Every lemma of a field is true by rfl. -/

namespace Sys2Proof.Machine

variable (s : State)

/-! The compound updates in terms of the plain ones -/

theorem State.wrf_eq (a lo len x : Nat) : s.wrf a lo len x = s.wr a (putf (s.rd a) lo len x) := rfl
theorem State.put_eq (a i : Nat) (b : Bool) : s.put a i b = s.wr a (setb (s.rd a) i b) := rfl
theorem State.orr_eq (a : Nat) (m : Word) : s.orr a m = s.wr a (s.rd a ||| m) := rfl
theorem State.modEng_eq (e : Nat) (f : Eng → Eng) : s.modEng e f = s.setEng e (f (s.eng e)) := rfl
theorem State.modPe_eq (n : Nat) (f : Pe → Pe) : s.modPe n f = s.setPe n (f (s.pe n)) := rfl
theorem State.modLane_eq (k : Nat) (f : Lane → Lane) : s.modLane k f = s.setLane k (f (s.lane k)) := rfl
theorem State.modTx_eq (n : Nat) (f : TxPort → TxPort) : s.modTx n f = s.setTx n (f (s.tx n)) := rfl
theorem State.modRx_eq (n : Nat) (f : RxPort → RxPort) : s.modRx n f = s.setRx n (f (s.rx n)) := rfl
theorem State.modKl_eq (p : Nat) (f : Kl → Kl) : s.modKl p f = s.setKl p (f (s.kl p)) := rfl
theorem State.modChan_eq (k : Nat) (f : Chan → Chan) : s.modChan k f = s.setChan k (f (s.chan k)) := rfl
theorem State.modUnit_eq (u : Nat) (f : CalUnit → CalUnit) : s.modUnit u f = s.setUnit u (f (s.unit u)) := rfl

/-! What an updated instance reads -/

@[simp] theorem State.wr_rd (a : Nat) (v : Word) (j : Nat) : (s.wr a v).rd j = if j = a then v else s.rd j := tget_tset ..
@[simp] theorem State.setEng_eng (e : Nat) (x : Eng) (j : Nat) : (s.setEng e x).eng j = if j = e then x else s.eng j := tget_tset ..
@[simp] theorem State.setPe_pe (n : Nat) (x : Pe) (j : Nat) : (s.setPe n x).pe j = if j = n then x else s.pe j := tget_tset ..
@[simp] theorem State.setSite_site (k : Nat) (x : RauSite) (j : Nat) : (s.setSite k x).site j = if j = k then x else s.site j := tget_tset ..
@[simp] theorem State.setRau_rau (u : Nat) (x : Rau) (j : Nat) : (s.setRau u x).rau j = if j = u then x else s.rau j := tget_tset ..
@[simp] theorem State.setLane_lane (k : Nat) (x : Lane) (j : Nat) : (s.setLane k x).lane j = if j = k then x else s.lane j := tget_tset ..
@[simp] theorem State.setSettle_settleAt (k t : Nat) (j : Nat) : (s.setSettle k t).settleAt j = if j = k then t else s.settleAt j := tget_tset ..
@[simp] theorem State.setSmu_smu (n : Nat) (x : Smu) (j : Nat) : (s.setSmu n x).smu j = if j = n then x else s.smu j := tget_tset ..
@[simp] theorem State.setMadc_madc (n : Nat) (x : Madc) (j : Nat) : (s.setMadc n x).madc j = if j = n then x else s.madc j := tget_tset ..
@[simp] theorem State.setTdc_tdc (k : Nat) (x : Tdc) (j : Nat) : (s.setTdc k x).tdc j = if j = k then x else s.tdc j := tget_tset ..
@[simp] theorem State.setTx_tx (n : Nat) (x : TxPort) (j : Nat) : (s.setTx n x).tx j = if j = n then x else s.tx j := tget_tset ..
@[simp] theorem State.setRx_rx (n : Nat) (x : RxPort) (j : Nat) : (s.setRx n x).rx j = if j = n then x else s.rx j := tget_tset ..
@[simp] theorem State.setKl_kl (p : Nat) (x : Kl) (j : Nat) : (s.setKl p x).kl j = if j = p then x else s.kl j := tget_tset ..
@[simp] theorem State.setChan_chan (k : Nat) (x : Chan) (j : Nat) : (s.setChan k x).chan j = if j = k then x else s.chan j := tget_tset ..
@[simp] theorem State.setUnit_unit (u : Nat) (x : CalUnit) (j : Nat) : (s.setUnit u x).unit j = if j = u then x else s.unit j := tget_tset ..
@[simp] theorem State.setTab_tab (k : Nat) (v : Word64) (j : Nat) : (s.setTab k v).tab j = if j = k then v else s.tab j := tget_tset ..
@[simp] theorem State.hbmSet_hbmB (a : Nat) (b : Byte) (j : Nat) : (s.hbmSet a b).hbmB j = if j = a then b else s.hbmB j := tget_tset ..

/-! wr changes `bar` alone -/

@[simp] theorem State.wr_pending (a : Nat) (v : Word) : (s.wr a v).pending = s.pending := rfl
@[simp] theorem State.wr_fsPar (a : Nat) (v : Word) : (s.wr a v).fsPar = s.fsPar := rfl
@[simp] theorem State.wr_hbm (a : Nat) (v : Word) : (s.wr a v).hbm = s.hbm := rfl
@[simp] theorem State.wr_tabs (a : Nat) (v : Word) : (s.wr a v).tabs = s.tabs := rfl
@[simp] theorem State.wr_now (a : Nat) (v : Word) : (s.wr a v).now = s.now := rfl
@[simp] theorem State.wr_wtc (a : Nat) (v : Word) : (s.wr a v).wtc = s.wtc := rfl
@[simp] theorem State.wr_epoch (a : Nat) (v : Word) : (s.wr a v).epoch = s.epoch := rfl
@[simp] theorem State.wr_armed (a : Nat) (v : Word) : (s.wr a v).armed = s.armed := rfl
@[simp] theorem State.wr_latch (a : Nat) (v : Word) : (s.wr a v).latch = s.latch := rfl
@[simp] theorem State.wr_held (a : Nat) (v : Word) : (s.wr a v).held = s.held := rfl
@[simp] theorem State.wr_resLatch (a : Nat) (v : Word) : (s.wr a v).resLatch = s.resLatch := rfl
@[simp] theorem State.wr_engs (a : Nat) (v : Word) : (s.wr a v).engs = s.engs := rfl
@[simp] theorem State.wr_pes (a : Nat) (v : Word) : (s.wr a v).pes = s.pes := rfl
@[simp] theorem State.wr_raus (a : Nat) (v : Word) : (s.wr a v).raus = s.raus := rfl
@[simp] theorem State.wr_rauq (a : Nat) (v : Word) : (s.wr a v).rauq = s.rauq := rfl
@[simp] theorem State.wr_lanes (a : Nat) (v : Word) : (s.wr a v).lanes = s.lanes := rfl
@[simp] theorem State.wr_settle (a : Nat) (v : Word) : (s.wr a v).settle = s.settle := rfl
@[simp] theorem State.wr_smus (a : Nat) (v : Word) : (s.wr a v).smus = s.smus := rfl
@[simp] theorem State.wr_madcs (a : Nat) (v : Word) : (s.wr a v).madcs = s.madcs := rfl
@[simp] theorem State.wr_tdcs (a : Nat) (v : Word) : (s.wr a v).tdcs = s.tdcs := rfl
@[simp] theorem State.wr_txs (a : Nat) (v : Word) : (s.wr a v).txs = s.txs := rfl
@[simp] theorem State.wr_rxs (a : Nat) (v : Word) : (s.wr a v).rxs = s.rxs := rfl
@[simp] theorem State.wr_dec (a : Nat) (v : Word) : (s.wr a v).dec = s.dec := rfl
@[simp] theorem State.wr_kls (a : Nat) (v : Word) : (s.wr a v).kls = s.kls := rfl
@[simp] theorem State.wr_mcsCopy (a : Nat) (v : Word) : (s.wr a v).mcsCopy = s.mcsCopy := rfl
@[simp] theorem State.wr_mcsBuf (a : Nat) (v : Word) : (s.wr a v).mcsBuf = s.mcsBuf := rfl
@[simp] theorem State.wr_mcsJob (a : Nat) (v : Word) : (s.wr a v).mcsJob = s.mcsJob := rfl
@[simp] theorem State.wr_chans (a : Nat) (v : Word) : (s.wr a v).chans = s.chans := rfl
@[simp] theorem State.wr_filling (a : Nat) (v : Word) : (s.wr a v).filling = s.filling := rfl
@[simp] theorem State.wr_ceFired (a : Nat) (v : Word) : (s.wr a v).ceFired = s.ceFired := rfl
@[simp] theorem State.wr_seas (a : Nat) (v : Word) : (s.wr a v).seas = s.seas := rfl
@[simp] theorem State.wr_glbLock (a : Nat) (v : Word) : (s.wr a v).glbLock = s.glbLock := rfl
@[simp] theorem State.wr_blob (a : Nat) (v : Word) : (s.wr a v).blob = s.blob := rfl
@[simp] theorem State.wr_units (a : Nat) (v : Word) : (s.wr a v).units = s.units := rfl
@[simp] theorem State.wr_calW (a : Nat) (v : Word) : (s.wr a v).calW = s.calW := rfl
@[simp] theorem State.wr_calF (a : Nat) (v : Word) : (s.wr a v).calF = s.calF := rfl
@[simp] theorem State.wr_thist (a : Nat) (v : Word) : (s.wr a v).thist = s.thist := rfl
@[simp] theorem State.wr_faults (a : Nat) (v : Word) : (s.wr a v).faults = s.faults := rfl
@[simp] theorem State.wr_quietFrom (a : Nat) (v : Word) : (s.wr a v).quietFrom = s.quietFrom := rfl
@[simp] theorem State.wr_chn (a : Nat) (v : Word) : (s.wr a v).chn = s.chn := rfl
@[simp] theorem State.wr_card (a : Nat) (v : Word) : (s.wr a v).card = s.card := rfl
@[simp] theorem State.wr_busMaster (a : Nat) (v : Word) : (s.wr a v).busMaster = s.busMaster := rfl
@[simp] theorem State.wr_msixEn (a : Nat) (v : Word) : (s.wr a v).msixEn = s.msixEn := rfl
@[simp] theorem State.wr_msixMask (a : Nat) (v : Word) : (s.wr a v).msixMask = s.msixMask := rfl
@[simp] theorem State.wr_outbox (a : Nat) (v : Word) : (s.wr a v).outbox = s.outbox := rfl
@[simp] theorem State.wr_fresh (a : Nat) (v : Word) : (s.wr a v).fresh = s.fresh := rfl
@[simp] theorem State.wr_eng (a : Nat) (v : Word) (j : Nat) : (s.wr a v).eng j = s.eng j := rfl
@[simp] theorem State.wr_pe (a : Nat) (v : Word) (j : Nat) : (s.wr a v).pe j = s.pe j := rfl
@[simp] theorem State.wr_hbmB (a : Nat) (v : Word) (j : Nat) : (s.wr a v).hbmB j = s.hbmB j := rfl

/-! setEng changes `engs` alone -/

@[simp] theorem State.setEng_pending (e : Nat) (x : Eng) : (s.setEng e x).pending = s.pending := rfl
@[simp] theorem State.setEng_bar (e : Nat) (x : Eng) : (s.setEng e x).bar = s.bar := rfl
@[simp] theorem State.setEng_fsPar (e : Nat) (x : Eng) : (s.setEng e x).fsPar = s.fsPar := rfl
@[simp] theorem State.setEng_hbm (e : Nat) (x : Eng) : (s.setEng e x).hbm = s.hbm := rfl
@[simp] theorem State.setEng_tabs (e : Nat) (x : Eng) : (s.setEng e x).tabs = s.tabs := rfl
@[simp] theorem State.setEng_now (e : Nat) (x : Eng) : (s.setEng e x).now = s.now := rfl
@[simp] theorem State.setEng_wtc (e : Nat) (x : Eng) : (s.setEng e x).wtc = s.wtc := rfl
@[simp] theorem State.setEng_epoch (e : Nat) (x : Eng) : (s.setEng e x).epoch = s.epoch := rfl
@[simp] theorem State.setEng_armed (e : Nat) (x : Eng) : (s.setEng e x).armed = s.armed := rfl
@[simp] theorem State.setEng_latch (e : Nat) (x : Eng) : (s.setEng e x).latch = s.latch := rfl
@[simp] theorem State.setEng_held (e : Nat) (x : Eng) : (s.setEng e x).held = s.held := rfl
@[simp] theorem State.setEng_resLatch (e : Nat) (x : Eng) : (s.setEng e x).resLatch = s.resLatch := rfl
@[simp] theorem State.setEng_pes (e : Nat) (x : Eng) : (s.setEng e x).pes = s.pes := rfl
@[simp] theorem State.setEng_raus (e : Nat) (x : Eng) : (s.setEng e x).raus = s.raus := rfl
@[simp] theorem State.setEng_rauq (e : Nat) (x : Eng) : (s.setEng e x).rauq = s.rauq := rfl
@[simp] theorem State.setEng_lanes (e : Nat) (x : Eng) : (s.setEng e x).lanes = s.lanes := rfl
@[simp] theorem State.setEng_settle (e : Nat) (x : Eng) : (s.setEng e x).settle = s.settle := rfl
@[simp] theorem State.setEng_smus (e : Nat) (x : Eng) : (s.setEng e x).smus = s.smus := rfl
@[simp] theorem State.setEng_madcs (e : Nat) (x : Eng) : (s.setEng e x).madcs = s.madcs := rfl
@[simp] theorem State.setEng_tdcs (e : Nat) (x : Eng) : (s.setEng e x).tdcs = s.tdcs := rfl
@[simp] theorem State.setEng_txs (e : Nat) (x : Eng) : (s.setEng e x).txs = s.txs := rfl
@[simp] theorem State.setEng_rxs (e : Nat) (x : Eng) : (s.setEng e x).rxs = s.rxs := rfl
@[simp] theorem State.setEng_dec (e : Nat) (x : Eng) : (s.setEng e x).dec = s.dec := rfl
@[simp] theorem State.setEng_kls (e : Nat) (x : Eng) : (s.setEng e x).kls = s.kls := rfl
@[simp] theorem State.setEng_mcsCopy (e : Nat) (x : Eng) : (s.setEng e x).mcsCopy = s.mcsCopy := rfl
@[simp] theorem State.setEng_mcsBuf (e : Nat) (x : Eng) : (s.setEng e x).mcsBuf = s.mcsBuf := rfl
@[simp] theorem State.setEng_mcsJob (e : Nat) (x : Eng) : (s.setEng e x).mcsJob = s.mcsJob := rfl
@[simp] theorem State.setEng_chans (e : Nat) (x : Eng) : (s.setEng e x).chans = s.chans := rfl
@[simp] theorem State.setEng_filling (e : Nat) (x : Eng) : (s.setEng e x).filling = s.filling := rfl
@[simp] theorem State.setEng_ceFired (e : Nat) (x : Eng) : (s.setEng e x).ceFired = s.ceFired := rfl
@[simp] theorem State.setEng_seas (e : Nat) (x : Eng) : (s.setEng e x).seas = s.seas := rfl
@[simp] theorem State.setEng_glbLock (e : Nat) (x : Eng) : (s.setEng e x).glbLock = s.glbLock := rfl
@[simp] theorem State.setEng_blob (e : Nat) (x : Eng) : (s.setEng e x).blob = s.blob := rfl
@[simp] theorem State.setEng_units (e : Nat) (x : Eng) : (s.setEng e x).units = s.units := rfl
@[simp] theorem State.setEng_calW (e : Nat) (x : Eng) : (s.setEng e x).calW = s.calW := rfl
@[simp] theorem State.setEng_calF (e : Nat) (x : Eng) : (s.setEng e x).calF = s.calF := rfl
@[simp] theorem State.setEng_thist (e : Nat) (x : Eng) : (s.setEng e x).thist = s.thist := rfl
@[simp] theorem State.setEng_faults (e : Nat) (x : Eng) : (s.setEng e x).faults = s.faults := rfl
@[simp] theorem State.setEng_quietFrom (e : Nat) (x : Eng) : (s.setEng e x).quietFrom = s.quietFrom := rfl
@[simp] theorem State.setEng_chn (e : Nat) (x : Eng) : (s.setEng e x).chn = s.chn := rfl
@[simp] theorem State.setEng_card (e : Nat) (x : Eng) : (s.setEng e x).card = s.card := rfl
@[simp] theorem State.setEng_busMaster (e : Nat) (x : Eng) : (s.setEng e x).busMaster = s.busMaster := rfl
@[simp] theorem State.setEng_msixEn (e : Nat) (x : Eng) : (s.setEng e x).msixEn = s.msixEn := rfl
@[simp] theorem State.setEng_msixMask (e : Nat) (x : Eng) : (s.setEng e x).msixMask = s.msixMask := rfl
@[simp] theorem State.setEng_outbox (e : Nat) (x : Eng) : (s.setEng e x).outbox = s.outbox := rfl
@[simp] theorem State.setEng_fresh (e : Nat) (x : Eng) : (s.setEng e x).fresh = s.fresh := rfl
@[simp] theorem State.setEng_rd (e : Nat) (x : Eng) (j : Nat) : (s.setEng e x).rd j = s.rd j := rfl
@[simp] theorem State.setEng_pe (e : Nat) (x : Eng) (j : Nat) : (s.setEng e x).pe j = s.pe j := rfl
@[simp] theorem State.setEng_hbmB (e : Nat) (x : Eng) (j : Nat) : (s.setEng e x).hbmB j = s.hbmB j := rfl

/-! setPe changes `pes` alone -/

@[simp] theorem State.setPe_pending (n : Nat) (x : Pe) : (s.setPe n x).pending = s.pending := rfl
@[simp] theorem State.setPe_bar (n : Nat) (x : Pe) : (s.setPe n x).bar = s.bar := rfl
@[simp] theorem State.setPe_fsPar (n : Nat) (x : Pe) : (s.setPe n x).fsPar = s.fsPar := rfl
@[simp] theorem State.setPe_hbm (n : Nat) (x : Pe) : (s.setPe n x).hbm = s.hbm := rfl
@[simp] theorem State.setPe_tabs (n : Nat) (x : Pe) : (s.setPe n x).tabs = s.tabs := rfl
@[simp] theorem State.setPe_now (n : Nat) (x : Pe) : (s.setPe n x).now = s.now := rfl
@[simp] theorem State.setPe_wtc (n : Nat) (x : Pe) : (s.setPe n x).wtc = s.wtc := rfl
@[simp] theorem State.setPe_epoch (n : Nat) (x : Pe) : (s.setPe n x).epoch = s.epoch := rfl
@[simp] theorem State.setPe_armed (n : Nat) (x : Pe) : (s.setPe n x).armed = s.armed := rfl
@[simp] theorem State.setPe_latch (n : Nat) (x : Pe) : (s.setPe n x).latch = s.latch := rfl
@[simp] theorem State.setPe_held (n : Nat) (x : Pe) : (s.setPe n x).held = s.held := rfl
@[simp] theorem State.setPe_resLatch (n : Nat) (x : Pe) : (s.setPe n x).resLatch = s.resLatch := rfl
@[simp] theorem State.setPe_engs (n : Nat) (x : Pe) : (s.setPe n x).engs = s.engs := rfl
@[simp] theorem State.setPe_raus (n : Nat) (x : Pe) : (s.setPe n x).raus = s.raus := rfl
@[simp] theorem State.setPe_rauq (n : Nat) (x : Pe) : (s.setPe n x).rauq = s.rauq := rfl
@[simp] theorem State.setPe_lanes (n : Nat) (x : Pe) : (s.setPe n x).lanes = s.lanes := rfl
@[simp] theorem State.setPe_settle (n : Nat) (x : Pe) : (s.setPe n x).settle = s.settle := rfl
@[simp] theorem State.setPe_smus (n : Nat) (x : Pe) : (s.setPe n x).smus = s.smus := rfl
@[simp] theorem State.setPe_madcs (n : Nat) (x : Pe) : (s.setPe n x).madcs = s.madcs := rfl
@[simp] theorem State.setPe_tdcs (n : Nat) (x : Pe) : (s.setPe n x).tdcs = s.tdcs := rfl
@[simp] theorem State.setPe_txs (n : Nat) (x : Pe) : (s.setPe n x).txs = s.txs := rfl
@[simp] theorem State.setPe_rxs (n : Nat) (x : Pe) : (s.setPe n x).rxs = s.rxs := rfl
@[simp] theorem State.setPe_dec (n : Nat) (x : Pe) : (s.setPe n x).dec = s.dec := rfl
@[simp] theorem State.setPe_kls (n : Nat) (x : Pe) : (s.setPe n x).kls = s.kls := rfl
@[simp] theorem State.setPe_mcsCopy (n : Nat) (x : Pe) : (s.setPe n x).mcsCopy = s.mcsCopy := rfl
@[simp] theorem State.setPe_mcsBuf (n : Nat) (x : Pe) : (s.setPe n x).mcsBuf = s.mcsBuf := rfl
@[simp] theorem State.setPe_mcsJob (n : Nat) (x : Pe) : (s.setPe n x).mcsJob = s.mcsJob := rfl
@[simp] theorem State.setPe_chans (n : Nat) (x : Pe) : (s.setPe n x).chans = s.chans := rfl
@[simp] theorem State.setPe_filling (n : Nat) (x : Pe) : (s.setPe n x).filling = s.filling := rfl
@[simp] theorem State.setPe_ceFired (n : Nat) (x : Pe) : (s.setPe n x).ceFired = s.ceFired := rfl
@[simp] theorem State.setPe_seas (n : Nat) (x : Pe) : (s.setPe n x).seas = s.seas := rfl
@[simp] theorem State.setPe_glbLock (n : Nat) (x : Pe) : (s.setPe n x).glbLock = s.glbLock := rfl
@[simp] theorem State.setPe_blob (n : Nat) (x : Pe) : (s.setPe n x).blob = s.blob := rfl
@[simp] theorem State.setPe_units (n : Nat) (x : Pe) : (s.setPe n x).units = s.units := rfl
@[simp] theorem State.setPe_calW (n : Nat) (x : Pe) : (s.setPe n x).calW = s.calW := rfl
@[simp] theorem State.setPe_calF (n : Nat) (x : Pe) : (s.setPe n x).calF = s.calF := rfl
@[simp] theorem State.setPe_thist (n : Nat) (x : Pe) : (s.setPe n x).thist = s.thist := rfl
@[simp] theorem State.setPe_faults (n : Nat) (x : Pe) : (s.setPe n x).faults = s.faults := rfl
@[simp] theorem State.setPe_quietFrom (n : Nat) (x : Pe) : (s.setPe n x).quietFrom = s.quietFrom := rfl
@[simp] theorem State.setPe_chn (n : Nat) (x : Pe) : (s.setPe n x).chn = s.chn := rfl
@[simp] theorem State.setPe_card (n : Nat) (x : Pe) : (s.setPe n x).card = s.card := rfl
@[simp] theorem State.setPe_busMaster (n : Nat) (x : Pe) : (s.setPe n x).busMaster = s.busMaster := rfl
@[simp] theorem State.setPe_msixEn (n : Nat) (x : Pe) : (s.setPe n x).msixEn = s.msixEn := rfl
@[simp] theorem State.setPe_msixMask (n : Nat) (x : Pe) : (s.setPe n x).msixMask = s.msixMask := rfl
@[simp] theorem State.setPe_outbox (n : Nat) (x : Pe) : (s.setPe n x).outbox = s.outbox := rfl
@[simp] theorem State.setPe_fresh (n : Nat) (x : Pe) : (s.setPe n x).fresh = s.fresh := rfl
@[simp] theorem State.setPe_rd (n : Nat) (x : Pe) (j : Nat) : (s.setPe n x).rd j = s.rd j := rfl
@[simp] theorem State.setPe_eng (n : Nat) (x : Pe) (j : Nat) : (s.setPe n x).eng j = s.eng j := rfl
@[simp] theorem State.setPe_hbmB (n : Nat) (x : Pe) (j : Nat) : (s.setPe n x).hbmB j = s.hbmB j := rfl

/-! setSite changes `raus` alone -/

@[simp] theorem State.setSite_pending (k : Nat) (x : RauSite) : (s.setSite k x).pending = s.pending := rfl
@[simp] theorem State.setSite_bar (k : Nat) (x : RauSite) : (s.setSite k x).bar = s.bar := rfl
@[simp] theorem State.setSite_fsPar (k : Nat) (x : RauSite) : (s.setSite k x).fsPar = s.fsPar := rfl
@[simp] theorem State.setSite_hbm (k : Nat) (x : RauSite) : (s.setSite k x).hbm = s.hbm := rfl
@[simp] theorem State.setSite_tabs (k : Nat) (x : RauSite) : (s.setSite k x).tabs = s.tabs := rfl
@[simp] theorem State.setSite_now (k : Nat) (x : RauSite) : (s.setSite k x).now = s.now := rfl
@[simp] theorem State.setSite_wtc (k : Nat) (x : RauSite) : (s.setSite k x).wtc = s.wtc := rfl
@[simp] theorem State.setSite_epoch (k : Nat) (x : RauSite) : (s.setSite k x).epoch = s.epoch := rfl
@[simp] theorem State.setSite_armed (k : Nat) (x : RauSite) : (s.setSite k x).armed = s.armed := rfl
@[simp] theorem State.setSite_latch (k : Nat) (x : RauSite) : (s.setSite k x).latch = s.latch := rfl
@[simp] theorem State.setSite_held (k : Nat) (x : RauSite) : (s.setSite k x).held = s.held := rfl
@[simp] theorem State.setSite_resLatch (k : Nat) (x : RauSite) : (s.setSite k x).resLatch = s.resLatch := rfl
@[simp] theorem State.setSite_engs (k : Nat) (x : RauSite) : (s.setSite k x).engs = s.engs := rfl
@[simp] theorem State.setSite_pes (k : Nat) (x : RauSite) : (s.setSite k x).pes = s.pes := rfl
@[simp] theorem State.setSite_rauq (k : Nat) (x : RauSite) : (s.setSite k x).rauq = s.rauq := rfl
@[simp] theorem State.setSite_lanes (k : Nat) (x : RauSite) : (s.setSite k x).lanes = s.lanes := rfl
@[simp] theorem State.setSite_settle (k : Nat) (x : RauSite) : (s.setSite k x).settle = s.settle := rfl
@[simp] theorem State.setSite_smus (k : Nat) (x : RauSite) : (s.setSite k x).smus = s.smus := rfl
@[simp] theorem State.setSite_madcs (k : Nat) (x : RauSite) : (s.setSite k x).madcs = s.madcs := rfl
@[simp] theorem State.setSite_tdcs (k : Nat) (x : RauSite) : (s.setSite k x).tdcs = s.tdcs := rfl
@[simp] theorem State.setSite_txs (k : Nat) (x : RauSite) : (s.setSite k x).txs = s.txs := rfl
@[simp] theorem State.setSite_rxs (k : Nat) (x : RauSite) : (s.setSite k x).rxs = s.rxs := rfl
@[simp] theorem State.setSite_dec (k : Nat) (x : RauSite) : (s.setSite k x).dec = s.dec := rfl
@[simp] theorem State.setSite_kls (k : Nat) (x : RauSite) : (s.setSite k x).kls = s.kls := rfl
@[simp] theorem State.setSite_mcsCopy (k : Nat) (x : RauSite) : (s.setSite k x).mcsCopy = s.mcsCopy := rfl
@[simp] theorem State.setSite_mcsBuf (k : Nat) (x : RauSite) : (s.setSite k x).mcsBuf = s.mcsBuf := rfl
@[simp] theorem State.setSite_mcsJob (k : Nat) (x : RauSite) : (s.setSite k x).mcsJob = s.mcsJob := rfl
@[simp] theorem State.setSite_chans (k : Nat) (x : RauSite) : (s.setSite k x).chans = s.chans := rfl
@[simp] theorem State.setSite_filling (k : Nat) (x : RauSite) : (s.setSite k x).filling = s.filling := rfl
@[simp] theorem State.setSite_ceFired (k : Nat) (x : RauSite) : (s.setSite k x).ceFired = s.ceFired := rfl
@[simp] theorem State.setSite_seas (k : Nat) (x : RauSite) : (s.setSite k x).seas = s.seas := rfl
@[simp] theorem State.setSite_glbLock (k : Nat) (x : RauSite) : (s.setSite k x).glbLock = s.glbLock := rfl
@[simp] theorem State.setSite_blob (k : Nat) (x : RauSite) : (s.setSite k x).blob = s.blob := rfl
@[simp] theorem State.setSite_units (k : Nat) (x : RauSite) : (s.setSite k x).units = s.units := rfl
@[simp] theorem State.setSite_calW (k : Nat) (x : RauSite) : (s.setSite k x).calW = s.calW := rfl
@[simp] theorem State.setSite_calF (k : Nat) (x : RauSite) : (s.setSite k x).calF = s.calF := rfl
@[simp] theorem State.setSite_thist (k : Nat) (x : RauSite) : (s.setSite k x).thist = s.thist := rfl
@[simp] theorem State.setSite_faults (k : Nat) (x : RauSite) : (s.setSite k x).faults = s.faults := rfl
@[simp] theorem State.setSite_quietFrom (k : Nat) (x : RauSite) : (s.setSite k x).quietFrom = s.quietFrom := rfl
@[simp] theorem State.setSite_chn (k : Nat) (x : RauSite) : (s.setSite k x).chn = s.chn := rfl
@[simp] theorem State.setSite_card (k : Nat) (x : RauSite) : (s.setSite k x).card = s.card := rfl
@[simp] theorem State.setSite_busMaster (k : Nat) (x : RauSite) : (s.setSite k x).busMaster = s.busMaster := rfl
@[simp] theorem State.setSite_msixEn (k : Nat) (x : RauSite) : (s.setSite k x).msixEn = s.msixEn := rfl
@[simp] theorem State.setSite_msixMask (k : Nat) (x : RauSite) : (s.setSite k x).msixMask = s.msixMask := rfl
@[simp] theorem State.setSite_outbox (k : Nat) (x : RauSite) : (s.setSite k x).outbox = s.outbox := rfl
@[simp] theorem State.setSite_fresh (k : Nat) (x : RauSite) : (s.setSite k x).fresh = s.fresh := rfl
@[simp] theorem State.setSite_rd (k : Nat) (x : RauSite) (j : Nat) : (s.setSite k x).rd j = s.rd j := rfl
@[simp] theorem State.setSite_eng (k : Nat) (x : RauSite) (j : Nat) : (s.setSite k x).eng j = s.eng j := rfl
@[simp] theorem State.setSite_pe (k : Nat) (x : RauSite) (j : Nat) : (s.setSite k x).pe j = s.pe j := rfl
@[simp] theorem State.setSite_hbmB (k : Nat) (x : RauSite) (j : Nat) : (s.setSite k x).hbmB j = s.hbmB j := rfl

/-! setRau changes `rauq` alone -/

@[simp] theorem State.setRau_pending (u : Nat) (x : Rau) : (s.setRau u x).pending = s.pending := rfl
@[simp] theorem State.setRau_bar (u : Nat) (x : Rau) : (s.setRau u x).bar = s.bar := rfl
@[simp] theorem State.setRau_fsPar (u : Nat) (x : Rau) : (s.setRau u x).fsPar = s.fsPar := rfl
@[simp] theorem State.setRau_hbm (u : Nat) (x : Rau) : (s.setRau u x).hbm = s.hbm := rfl
@[simp] theorem State.setRau_tabs (u : Nat) (x : Rau) : (s.setRau u x).tabs = s.tabs := rfl
@[simp] theorem State.setRau_now (u : Nat) (x : Rau) : (s.setRau u x).now = s.now := rfl
@[simp] theorem State.setRau_wtc (u : Nat) (x : Rau) : (s.setRau u x).wtc = s.wtc := rfl
@[simp] theorem State.setRau_epoch (u : Nat) (x : Rau) : (s.setRau u x).epoch = s.epoch := rfl
@[simp] theorem State.setRau_armed (u : Nat) (x : Rau) : (s.setRau u x).armed = s.armed := rfl
@[simp] theorem State.setRau_latch (u : Nat) (x : Rau) : (s.setRau u x).latch = s.latch := rfl
@[simp] theorem State.setRau_held (u : Nat) (x : Rau) : (s.setRau u x).held = s.held := rfl
@[simp] theorem State.setRau_resLatch (u : Nat) (x : Rau) : (s.setRau u x).resLatch = s.resLatch := rfl
@[simp] theorem State.setRau_engs (u : Nat) (x : Rau) : (s.setRau u x).engs = s.engs := rfl
@[simp] theorem State.setRau_pes (u : Nat) (x : Rau) : (s.setRau u x).pes = s.pes := rfl
@[simp] theorem State.setRau_raus (u : Nat) (x : Rau) : (s.setRau u x).raus = s.raus := rfl
@[simp] theorem State.setRau_lanes (u : Nat) (x : Rau) : (s.setRau u x).lanes = s.lanes := rfl
@[simp] theorem State.setRau_settle (u : Nat) (x : Rau) : (s.setRau u x).settle = s.settle := rfl
@[simp] theorem State.setRau_smus (u : Nat) (x : Rau) : (s.setRau u x).smus = s.smus := rfl
@[simp] theorem State.setRau_madcs (u : Nat) (x : Rau) : (s.setRau u x).madcs = s.madcs := rfl
@[simp] theorem State.setRau_tdcs (u : Nat) (x : Rau) : (s.setRau u x).tdcs = s.tdcs := rfl
@[simp] theorem State.setRau_txs (u : Nat) (x : Rau) : (s.setRau u x).txs = s.txs := rfl
@[simp] theorem State.setRau_rxs (u : Nat) (x : Rau) : (s.setRau u x).rxs = s.rxs := rfl
@[simp] theorem State.setRau_dec (u : Nat) (x : Rau) : (s.setRau u x).dec = s.dec := rfl
@[simp] theorem State.setRau_kls (u : Nat) (x : Rau) : (s.setRau u x).kls = s.kls := rfl
@[simp] theorem State.setRau_mcsCopy (u : Nat) (x : Rau) : (s.setRau u x).mcsCopy = s.mcsCopy := rfl
@[simp] theorem State.setRau_mcsBuf (u : Nat) (x : Rau) : (s.setRau u x).mcsBuf = s.mcsBuf := rfl
@[simp] theorem State.setRau_mcsJob (u : Nat) (x : Rau) : (s.setRau u x).mcsJob = s.mcsJob := rfl
@[simp] theorem State.setRau_chans (u : Nat) (x : Rau) : (s.setRau u x).chans = s.chans := rfl
@[simp] theorem State.setRau_filling (u : Nat) (x : Rau) : (s.setRau u x).filling = s.filling := rfl
@[simp] theorem State.setRau_ceFired (u : Nat) (x : Rau) : (s.setRau u x).ceFired = s.ceFired := rfl
@[simp] theorem State.setRau_seas (u : Nat) (x : Rau) : (s.setRau u x).seas = s.seas := rfl
@[simp] theorem State.setRau_glbLock (u : Nat) (x : Rau) : (s.setRau u x).glbLock = s.glbLock := rfl
@[simp] theorem State.setRau_blob (u : Nat) (x : Rau) : (s.setRau u x).blob = s.blob := rfl
@[simp] theorem State.setRau_units (u : Nat) (x : Rau) : (s.setRau u x).units = s.units := rfl
@[simp] theorem State.setRau_calW (u : Nat) (x : Rau) : (s.setRau u x).calW = s.calW := rfl
@[simp] theorem State.setRau_calF (u : Nat) (x : Rau) : (s.setRau u x).calF = s.calF := rfl
@[simp] theorem State.setRau_thist (u : Nat) (x : Rau) : (s.setRau u x).thist = s.thist := rfl
@[simp] theorem State.setRau_faults (u : Nat) (x : Rau) : (s.setRau u x).faults = s.faults := rfl
@[simp] theorem State.setRau_quietFrom (u : Nat) (x : Rau) : (s.setRau u x).quietFrom = s.quietFrom := rfl
@[simp] theorem State.setRau_chn (u : Nat) (x : Rau) : (s.setRau u x).chn = s.chn := rfl
@[simp] theorem State.setRau_card (u : Nat) (x : Rau) : (s.setRau u x).card = s.card := rfl
@[simp] theorem State.setRau_busMaster (u : Nat) (x : Rau) : (s.setRau u x).busMaster = s.busMaster := rfl
@[simp] theorem State.setRau_msixEn (u : Nat) (x : Rau) : (s.setRau u x).msixEn = s.msixEn := rfl
@[simp] theorem State.setRau_msixMask (u : Nat) (x : Rau) : (s.setRau u x).msixMask = s.msixMask := rfl
@[simp] theorem State.setRau_outbox (u : Nat) (x : Rau) : (s.setRau u x).outbox = s.outbox := rfl
@[simp] theorem State.setRau_fresh (u : Nat) (x : Rau) : (s.setRau u x).fresh = s.fresh := rfl
@[simp] theorem State.setRau_rd (u : Nat) (x : Rau) (j : Nat) : (s.setRau u x).rd j = s.rd j := rfl
@[simp] theorem State.setRau_eng (u : Nat) (x : Rau) (j : Nat) : (s.setRau u x).eng j = s.eng j := rfl
@[simp] theorem State.setRau_pe (u : Nat) (x : Rau) (j : Nat) : (s.setRau u x).pe j = s.pe j := rfl
@[simp] theorem State.setRau_hbmB (u : Nat) (x : Rau) (j : Nat) : (s.setRau u x).hbmB j = s.hbmB j := rfl

/-! setLane changes `lanes` alone -/

@[simp] theorem State.setLane_pending (k : Nat) (x : Lane) : (s.setLane k x).pending = s.pending := rfl
@[simp] theorem State.setLane_bar (k : Nat) (x : Lane) : (s.setLane k x).bar = s.bar := rfl
@[simp] theorem State.setLane_fsPar (k : Nat) (x : Lane) : (s.setLane k x).fsPar = s.fsPar := rfl
@[simp] theorem State.setLane_hbm (k : Nat) (x : Lane) : (s.setLane k x).hbm = s.hbm := rfl
@[simp] theorem State.setLane_tabs (k : Nat) (x : Lane) : (s.setLane k x).tabs = s.tabs := rfl
@[simp] theorem State.setLane_now (k : Nat) (x : Lane) : (s.setLane k x).now = s.now := rfl
@[simp] theorem State.setLane_wtc (k : Nat) (x : Lane) : (s.setLane k x).wtc = s.wtc := rfl
@[simp] theorem State.setLane_epoch (k : Nat) (x : Lane) : (s.setLane k x).epoch = s.epoch := rfl
@[simp] theorem State.setLane_armed (k : Nat) (x : Lane) : (s.setLane k x).armed = s.armed := rfl
@[simp] theorem State.setLane_latch (k : Nat) (x : Lane) : (s.setLane k x).latch = s.latch := rfl
@[simp] theorem State.setLane_held (k : Nat) (x : Lane) : (s.setLane k x).held = s.held := rfl
@[simp] theorem State.setLane_resLatch (k : Nat) (x : Lane) : (s.setLane k x).resLatch = s.resLatch := rfl
@[simp] theorem State.setLane_engs (k : Nat) (x : Lane) : (s.setLane k x).engs = s.engs := rfl
@[simp] theorem State.setLane_pes (k : Nat) (x : Lane) : (s.setLane k x).pes = s.pes := rfl
@[simp] theorem State.setLane_raus (k : Nat) (x : Lane) : (s.setLane k x).raus = s.raus := rfl
@[simp] theorem State.setLane_rauq (k : Nat) (x : Lane) : (s.setLane k x).rauq = s.rauq := rfl
@[simp] theorem State.setLane_settle (k : Nat) (x : Lane) : (s.setLane k x).settle = s.settle := rfl
@[simp] theorem State.setLane_smus (k : Nat) (x : Lane) : (s.setLane k x).smus = s.smus := rfl
@[simp] theorem State.setLane_madcs (k : Nat) (x : Lane) : (s.setLane k x).madcs = s.madcs := rfl
@[simp] theorem State.setLane_tdcs (k : Nat) (x : Lane) : (s.setLane k x).tdcs = s.tdcs := rfl
@[simp] theorem State.setLane_txs (k : Nat) (x : Lane) : (s.setLane k x).txs = s.txs := rfl
@[simp] theorem State.setLane_rxs (k : Nat) (x : Lane) : (s.setLane k x).rxs = s.rxs := rfl
@[simp] theorem State.setLane_dec (k : Nat) (x : Lane) : (s.setLane k x).dec = s.dec := rfl
@[simp] theorem State.setLane_kls (k : Nat) (x : Lane) : (s.setLane k x).kls = s.kls := rfl
@[simp] theorem State.setLane_mcsCopy (k : Nat) (x : Lane) : (s.setLane k x).mcsCopy = s.mcsCopy := rfl
@[simp] theorem State.setLane_mcsBuf (k : Nat) (x : Lane) : (s.setLane k x).mcsBuf = s.mcsBuf := rfl
@[simp] theorem State.setLane_mcsJob (k : Nat) (x : Lane) : (s.setLane k x).mcsJob = s.mcsJob := rfl
@[simp] theorem State.setLane_chans (k : Nat) (x : Lane) : (s.setLane k x).chans = s.chans := rfl
@[simp] theorem State.setLane_filling (k : Nat) (x : Lane) : (s.setLane k x).filling = s.filling := rfl
@[simp] theorem State.setLane_ceFired (k : Nat) (x : Lane) : (s.setLane k x).ceFired = s.ceFired := rfl
@[simp] theorem State.setLane_seas (k : Nat) (x : Lane) : (s.setLane k x).seas = s.seas := rfl
@[simp] theorem State.setLane_glbLock (k : Nat) (x : Lane) : (s.setLane k x).glbLock = s.glbLock := rfl
@[simp] theorem State.setLane_blob (k : Nat) (x : Lane) : (s.setLane k x).blob = s.blob := rfl
@[simp] theorem State.setLane_units (k : Nat) (x : Lane) : (s.setLane k x).units = s.units := rfl
@[simp] theorem State.setLane_calW (k : Nat) (x : Lane) : (s.setLane k x).calW = s.calW := rfl
@[simp] theorem State.setLane_calF (k : Nat) (x : Lane) : (s.setLane k x).calF = s.calF := rfl
@[simp] theorem State.setLane_thist (k : Nat) (x : Lane) : (s.setLane k x).thist = s.thist := rfl
@[simp] theorem State.setLane_faults (k : Nat) (x : Lane) : (s.setLane k x).faults = s.faults := rfl
@[simp] theorem State.setLane_quietFrom (k : Nat) (x : Lane) : (s.setLane k x).quietFrom = s.quietFrom := rfl
@[simp] theorem State.setLane_chn (k : Nat) (x : Lane) : (s.setLane k x).chn = s.chn := rfl
@[simp] theorem State.setLane_card (k : Nat) (x : Lane) : (s.setLane k x).card = s.card := rfl
@[simp] theorem State.setLane_busMaster (k : Nat) (x : Lane) : (s.setLane k x).busMaster = s.busMaster := rfl
@[simp] theorem State.setLane_msixEn (k : Nat) (x : Lane) : (s.setLane k x).msixEn = s.msixEn := rfl
@[simp] theorem State.setLane_msixMask (k : Nat) (x : Lane) : (s.setLane k x).msixMask = s.msixMask := rfl
@[simp] theorem State.setLane_outbox (k : Nat) (x : Lane) : (s.setLane k x).outbox = s.outbox := rfl
@[simp] theorem State.setLane_fresh (k : Nat) (x : Lane) : (s.setLane k x).fresh = s.fresh := rfl
@[simp] theorem State.setLane_rd (k : Nat) (x : Lane) (j : Nat) : (s.setLane k x).rd j = s.rd j := rfl
@[simp] theorem State.setLane_eng (k : Nat) (x : Lane) (j : Nat) : (s.setLane k x).eng j = s.eng j := rfl
@[simp] theorem State.setLane_pe (k : Nat) (x : Lane) (j : Nat) : (s.setLane k x).pe j = s.pe j := rfl
@[simp] theorem State.setLane_hbmB (k : Nat) (x : Lane) (j : Nat) : (s.setLane k x).hbmB j = s.hbmB j := rfl

/-! setSettle changes `settle` alone -/

@[simp] theorem State.setSettle_pending (k t : Nat) : (s.setSettle k t).pending = s.pending := rfl
@[simp] theorem State.setSettle_bar (k t : Nat) : (s.setSettle k t).bar = s.bar := rfl
@[simp] theorem State.setSettle_fsPar (k t : Nat) : (s.setSettle k t).fsPar = s.fsPar := rfl
@[simp] theorem State.setSettle_hbm (k t : Nat) : (s.setSettle k t).hbm = s.hbm := rfl
@[simp] theorem State.setSettle_tabs (k t : Nat) : (s.setSettle k t).tabs = s.tabs := rfl
@[simp] theorem State.setSettle_now (k t : Nat) : (s.setSettle k t).now = s.now := rfl
@[simp] theorem State.setSettle_wtc (k t : Nat) : (s.setSettle k t).wtc = s.wtc := rfl
@[simp] theorem State.setSettle_epoch (k t : Nat) : (s.setSettle k t).epoch = s.epoch := rfl
@[simp] theorem State.setSettle_armed (k t : Nat) : (s.setSettle k t).armed = s.armed := rfl
@[simp] theorem State.setSettle_latch (k t : Nat) : (s.setSettle k t).latch = s.latch := rfl
@[simp] theorem State.setSettle_held (k t : Nat) : (s.setSettle k t).held = s.held := rfl
@[simp] theorem State.setSettle_resLatch (k t : Nat) : (s.setSettle k t).resLatch = s.resLatch := rfl
@[simp] theorem State.setSettle_engs (k t : Nat) : (s.setSettle k t).engs = s.engs := rfl
@[simp] theorem State.setSettle_pes (k t : Nat) : (s.setSettle k t).pes = s.pes := rfl
@[simp] theorem State.setSettle_raus (k t : Nat) : (s.setSettle k t).raus = s.raus := rfl
@[simp] theorem State.setSettle_rauq (k t : Nat) : (s.setSettle k t).rauq = s.rauq := rfl
@[simp] theorem State.setSettle_lanes (k t : Nat) : (s.setSettle k t).lanes = s.lanes := rfl
@[simp] theorem State.setSettle_smus (k t : Nat) : (s.setSettle k t).smus = s.smus := rfl
@[simp] theorem State.setSettle_madcs (k t : Nat) : (s.setSettle k t).madcs = s.madcs := rfl
@[simp] theorem State.setSettle_tdcs (k t : Nat) : (s.setSettle k t).tdcs = s.tdcs := rfl
@[simp] theorem State.setSettle_txs (k t : Nat) : (s.setSettle k t).txs = s.txs := rfl
@[simp] theorem State.setSettle_rxs (k t : Nat) : (s.setSettle k t).rxs = s.rxs := rfl
@[simp] theorem State.setSettle_dec (k t : Nat) : (s.setSettle k t).dec = s.dec := rfl
@[simp] theorem State.setSettle_kls (k t : Nat) : (s.setSettle k t).kls = s.kls := rfl
@[simp] theorem State.setSettle_mcsCopy (k t : Nat) : (s.setSettle k t).mcsCopy = s.mcsCopy := rfl
@[simp] theorem State.setSettle_mcsBuf (k t : Nat) : (s.setSettle k t).mcsBuf = s.mcsBuf := rfl
@[simp] theorem State.setSettle_mcsJob (k t : Nat) : (s.setSettle k t).mcsJob = s.mcsJob := rfl
@[simp] theorem State.setSettle_chans (k t : Nat) : (s.setSettle k t).chans = s.chans := rfl
@[simp] theorem State.setSettle_filling (k t : Nat) : (s.setSettle k t).filling = s.filling := rfl
@[simp] theorem State.setSettle_ceFired (k t : Nat) : (s.setSettle k t).ceFired = s.ceFired := rfl
@[simp] theorem State.setSettle_seas (k t : Nat) : (s.setSettle k t).seas = s.seas := rfl
@[simp] theorem State.setSettle_glbLock (k t : Nat) : (s.setSettle k t).glbLock = s.glbLock := rfl
@[simp] theorem State.setSettle_blob (k t : Nat) : (s.setSettle k t).blob = s.blob := rfl
@[simp] theorem State.setSettle_units (k t : Nat) : (s.setSettle k t).units = s.units := rfl
@[simp] theorem State.setSettle_calW (k t : Nat) : (s.setSettle k t).calW = s.calW := rfl
@[simp] theorem State.setSettle_calF (k t : Nat) : (s.setSettle k t).calF = s.calF := rfl
@[simp] theorem State.setSettle_thist (k t : Nat) : (s.setSettle k t).thist = s.thist := rfl
@[simp] theorem State.setSettle_faults (k t : Nat) : (s.setSettle k t).faults = s.faults := rfl
@[simp] theorem State.setSettle_quietFrom (k t : Nat) : (s.setSettle k t).quietFrom = s.quietFrom := rfl
@[simp] theorem State.setSettle_chn (k t : Nat) : (s.setSettle k t).chn = s.chn := rfl
@[simp] theorem State.setSettle_card (k t : Nat) : (s.setSettle k t).card = s.card := rfl
@[simp] theorem State.setSettle_busMaster (k t : Nat) : (s.setSettle k t).busMaster = s.busMaster := rfl
@[simp] theorem State.setSettle_msixEn (k t : Nat) : (s.setSettle k t).msixEn = s.msixEn := rfl
@[simp] theorem State.setSettle_msixMask (k t : Nat) : (s.setSettle k t).msixMask = s.msixMask := rfl
@[simp] theorem State.setSettle_outbox (k t : Nat) : (s.setSettle k t).outbox = s.outbox := rfl
@[simp] theorem State.setSettle_fresh (k t : Nat) : (s.setSettle k t).fresh = s.fresh := rfl
@[simp] theorem State.setSettle_rd (k t : Nat) (j : Nat) : (s.setSettle k t).rd j = s.rd j := rfl
@[simp] theorem State.setSettle_eng (k t : Nat) (j : Nat) : (s.setSettle k t).eng j = s.eng j := rfl
@[simp] theorem State.setSettle_pe (k t : Nat) (j : Nat) : (s.setSettle k t).pe j = s.pe j := rfl
@[simp] theorem State.setSettle_hbmB (k t : Nat) (j : Nat) : (s.setSettle k t).hbmB j = s.hbmB j := rfl

/-! setSmu changes `smus` alone -/

@[simp] theorem State.setSmu_pending (n : Nat) (x : Smu) : (s.setSmu n x).pending = s.pending := rfl
@[simp] theorem State.setSmu_bar (n : Nat) (x : Smu) : (s.setSmu n x).bar = s.bar := rfl
@[simp] theorem State.setSmu_fsPar (n : Nat) (x : Smu) : (s.setSmu n x).fsPar = s.fsPar := rfl
@[simp] theorem State.setSmu_hbm (n : Nat) (x : Smu) : (s.setSmu n x).hbm = s.hbm := rfl
@[simp] theorem State.setSmu_tabs (n : Nat) (x : Smu) : (s.setSmu n x).tabs = s.tabs := rfl
@[simp] theorem State.setSmu_now (n : Nat) (x : Smu) : (s.setSmu n x).now = s.now := rfl
@[simp] theorem State.setSmu_wtc (n : Nat) (x : Smu) : (s.setSmu n x).wtc = s.wtc := rfl
@[simp] theorem State.setSmu_epoch (n : Nat) (x : Smu) : (s.setSmu n x).epoch = s.epoch := rfl
@[simp] theorem State.setSmu_armed (n : Nat) (x : Smu) : (s.setSmu n x).armed = s.armed := rfl
@[simp] theorem State.setSmu_latch (n : Nat) (x : Smu) : (s.setSmu n x).latch = s.latch := rfl
@[simp] theorem State.setSmu_held (n : Nat) (x : Smu) : (s.setSmu n x).held = s.held := rfl
@[simp] theorem State.setSmu_resLatch (n : Nat) (x : Smu) : (s.setSmu n x).resLatch = s.resLatch := rfl
@[simp] theorem State.setSmu_engs (n : Nat) (x : Smu) : (s.setSmu n x).engs = s.engs := rfl
@[simp] theorem State.setSmu_pes (n : Nat) (x : Smu) : (s.setSmu n x).pes = s.pes := rfl
@[simp] theorem State.setSmu_raus (n : Nat) (x : Smu) : (s.setSmu n x).raus = s.raus := rfl
@[simp] theorem State.setSmu_rauq (n : Nat) (x : Smu) : (s.setSmu n x).rauq = s.rauq := rfl
@[simp] theorem State.setSmu_lanes (n : Nat) (x : Smu) : (s.setSmu n x).lanes = s.lanes := rfl
@[simp] theorem State.setSmu_settle (n : Nat) (x : Smu) : (s.setSmu n x).settle = s.settle := rfl
@[simp] theorem State.setSmu_madcs (n : Nat) (x : Smu) : (s.setSmu n x).madcs = s.madcs := rfl
@[simp] theorem State.setSmu_tdcs (n : Nat) (x : Smu) : (s.setSmu n x).tdcs = s.tdcs := rfl
@[simp] theorem State.setSmu_txs (n : Nat) (x : Smu) : (s.setSmu n x).txs = s.txs := rfl
@[simp] theorem State.setSmu_rxs (n : Nat) (x : Smu) : (s.setSmu n x).rxs = s.rxs := rfl
@[simp] theorem State.setSmu_dec (n : Nat) (x : Smu) : (s.setSmu n x).dec = s.dec := rfl
@[simp] theorem State.setSmu_kls (n : Nat) (x : Smu) : (s.setSmu n x).kls = s.kls := rfl
@[simp] theorem State.setSmu_mcsCopy (n : Nat) (x : Smu) : (s.setSmu n x).mcsCopy = s.mcsCopy := rfl
@[simp] theorem State.setSmu_mcsBuf (n : Nat) (x : Smu) : (s.setSmu n x).mcsBuf = s.mcsBuf := rfl
@[simp] theorem State.setSmu_mcsJob (n : Nat) (x : Smu) : (s.setSmu n x).mcsJob = s.mcsJob := rfl
@[simp] theorem State.setSmu_chans (n : Nat) (x : Smu) : (s.setSmu n x).chans = s.chans := rfl
@[simp] theorem State.setSmu_filling (n : Nat) (x : Smu) : (s.setSmu n x).filling = s.filling := rfl
@[simp] theorem State.setSmu_ceFired (n : Nat) (x : Smu) : (s.setSmu n x).ceFired = s.ceFired := rfl
@[simp] theorem State.setSmu_seas (n : Nat) (x : Smu) : (s.setSmu n x).seas = s.seas := rfl
@[simp] theorem State.setSmu_glbLock (n : Nat) (x : Smu) : (s.setSmu n x).glbLock = s.glbLock := rfl
@[simp] theorem State.setSmu_blob (n : Nat) (x : Smu) : (s.setSmu n x).blob = s.blob := rfl
@[simp] theorem State.setSmu_units (n : Nat) (x : Smu) : (s.setSmu n x).units = s.units := rfl
@[simp] theorem State.setSmu_calW (n : Nat) (x : Smu) : (s.setSmu n x).calW = s.calW := rfl
@[simp] theorem State.setSmu_calF (n : Nat) (x : Smu) : (s.setSmu n x).calF = s.calF := rfl
@[simp] theorem State.setSmu_thist (n : Nat) (x : Smu) : (s.setSmu n x).thist = s.thist := rfl
@[simp] theorem State.setSmu_faults (n : Nat) (x : Smu) : (s.setSmu n x).faults = s.faults := rfl
@[simp] theorem State.setSmu_quietFrom (n : Nat) (x : Smu) : (s.setSmu n x).quietFrom = s.quietFrom := rfl
@[simp] theorem State.setSmu_chn (n : Nat) (x : Smu) : (s.setSmu n x).chn = s.chn := rfl
@[simp] theorem State.setSmu_card (n : Nat) (x : Smu) : (s.setSmu n x).card = s.card := rfl
@[simp] theorem State.setSmu_busMaster (n : Nat) (x : Smu) : (s.setSmu n x).busMaster = s.busMaster := rfl
@[simp] theorem State.setSmu_msixEn (n : Nat) (x : Smu) : (s.setSmu n x).msixEn = s.msixEn := rfl
@[simp] theorem State.setSmu_msixMask (n : Nat) (x : Smu) : (s.setSmu n x).msixMask = s.msixMask := rfl
@[simp] theorem State.setSmu_outbox (n : Nat) (x : Smu) : (s.setSmu n x).outbox = s.outbox := rfl
@[simp] theorem State.setSmu_fresh (n : Nat) (x : Smu) : (s.setSmu n x).fresh = s.fresh := rfl
@[simp] theorem State.setSmu_rd (n : Nat) (x : Smu) (j : Nat) : (s.setSmu n x).rd j = s.rd j := rfl
@[simp] theorem State.setSmu_eng (n : Nat) (x : Smu) (j : Nat) : (s.setSmu n x).eng j = s.eng j := rfl
@[simp] theorem State.setSmu_pe (n : Nat) (x : Smu) (j : Nat) : (s.setSmu n x).pe j = s.pe j := rfl
@[simp] theorem State.setSmu_hbmB (n : Nat) (x : Smu) (j : Nat) : (s.setSmu n x).hbmB j = s.hbmB j := rfl

/-! setMadc changes `madcs` alone -/

@[simp] theorem State.setMadc_pending (n : Nat) (x : Madc) : (s.setMadc n x).pending = s.pending := rfl
@[simp] theorem State.setMadc_bar (n : Nat) (x : Madc) : (s.setMadc n x).bar = s.bar := rfl
@[simp] theorem State.setMadc_fsPar (n : Nat) (x : Madc) : (s.setMadc n x).fsPar = s.fsPar := rfl
@[simp] theorem State.setMadc_hbm (n : Nat) (x : Madc) : (s.setMadc n x).hbm = s.hbm := rfl
@[simp] theorem State.setMadc_tabs (n : Nat) (x : Madc) : (s.setMadc n x).tabs = s.tabs := rfl
@[simp] theorem State.setMadc_now (n : Nat) (x : Madc) : (s.setMadc n x).now = s.now := rfl
@[simp] theorem State.setMadc_wtc (n : Nat) (x : Madc) : (s.setMadc n x).wtc = s.wtc := rfl
@[simp] theorem State.setMadc_epoch (n : Nat) (x : Madc) : (s.setMadc n x).epoch = s.epoch := rfl
@[simp] theorem State.setMadc_armed (n : Nat) (x : Madc) : (s.setMadc n x).armed = s.armed := rfl
@[simp] theorem State.setMadc_latch (n : Nat) (x : Madc) : (s.setMadc n x).latch = s.latch := rfl
@[simp] theorem State.setMadc_held (n : Nat) (x : Madc) : (s.setMadc n x).held = s.held := rfl
@[simp] theorem State.setMadc_resLatch (n : Nat) (x : Madc) : (s.setMadc n x).resLatch = s.resLatch := rfl
@[simp] theorem State.setMadc_engs (n : Nat) (x : Madc) : (s.setMadc n x).engs = s.engs := rfl
@[simp] theorem State.setMadc_pes (n : Nat) (x : Madc) : (s.setMadc n x).pes = s.pes := rfl
@[simp] theorem State.setMadc_raus (n : Nat) (x : Madc) : (s.setMadc n x).raus = s.raus := rfl
@[simp] theorem State.setMadc_rauq (n : Nat) (x : Madc) : (s.setMadc n x).rauq = s.rauq := rfl
@[simp] theorem State.setMadc_lanes (n : Nat) (x : Madc) : (s.setMadc n x).lanes = s.lanes := rfl
@[simp] theorem State.setMadc_settle (n : Nat) (x : Madc) : (s.setMadc n x).settle = s.settle := rfl
@[simp] theorem State.setMadc_smus (n : Nat) (x : Madc) : (s.setMadc n x).smus = s.smus := rfl
@[simp] theorem State.setMadc_tdcs (n : Nat) (x : Madc) : (s.setMadc n x).tdcs = s.tdcs := rfl
@[simp] theorem State.setMadc_txs (n : Nat) (x : Madc) : (s.setMadc n x).txs = s.txs := rfl
@[simp] theorem State.setMadc_rxs (n : Nat) (x : Madc) : (s.setMadc n x).rxs = s.rxs := rfl
@[simp] theorem State.setMadc_dec (n : Nat) (x : Madc) : (s.setMadc n x).dec = s.dec := rfl
@[simp] theorem State.setMadc_kls (n : Nat) (x : Madc) : (s.setMadc n x).kls = s.kls := rfl
@[simp] theorem State.setMadc_mcsCopy (n : Nat) (x : Madc) : (s.setMadc n x).mcsCopy = s.mcsCopy := rfl
@[simp] theorem State.setMadc_mcsBuf (n : Nat) (x : Madc) : (s.setMadc n x).mcsBuf = s.mcsBuf := rfl
@[simp] theorem State.setMadc_mcsJob (n : Nat) (x : Madc) : (s.setMadc n x).mcsJob = s.mcsJob := rfl
@[simp] theorem State.setMadc_chans (n : Nat) (x : Madc) : (s.setMadc n x).chans = s.chans := rfl
@[simp] theorem State.setMadc_filling (n : Nat) (x : Madc) : (s.setMadc n x).filling = s.filling := rfl
@[simp] theorem State.setMadc_ceFired (n : Nat) (x : Madc) : (s.setMadc n x).ceFired = s.ceFired := rfl
@[simp] theorem State.setMadc_seas (n : Nat) (x : Madc) : (s.setMadc n x).seas = s.seas := rfl
@[simp] theorem State.setMadc_glbLock (n : Nat) (x : Madc) : (s.setMadc n x).glbLock = s.glbLock := rfl
@[simp] theorem State.setMadc_blob (n : Nat) (x : Madc) : (s.setMadc n x).blob = s.blob := rfl
@[simp] theorem State.setMadc_units (n : Nat) (x : Madc) : (s.setMadc n x).units = s.units := rfl
@[simp] theorem State.setMadc_calW (n : Nat) (x : Madc) : (s.setMadc n x).calW = s.calW := rfl
@[simp] theorem State.setMadc_calF (n : Nat) (x : Madc) : (s.setMadc n x).calF = s.calF := rfl
@[simp] theorem State.setMadc_thist (n : Nat) (x : Madc) : (s.setMadc n x).thist = s.thist := rfl
@[simp] theorem State.setMadc_faults (n : Nat) (x : Madc) : (s.setMadc n x).faults = s.faults := rfl
@[simp] theorem State.setMadc_quietFrom (n : Nat) (x : Madc) : (s.setMadc n x).quietFrom = s.quietFrom := rfl
@[simp] theorem State.setMadc_chn (n : Nat) (x : Madc) : (s.setMadc n x).chn = s.chn := rfl
@[simp] theorem State.setMadc_card (n : Nat) (x : Madc) : (s.setMadc n x).card = s.card := rfl
@[simp] theorem State.setMadc_busMaster (n : Nat) (x : Madc) : (s.setMadc n x).busMaster = s.busMaster := rfl
@[simp] theorem State.setMadc_msixEn (n : Nat) (x : Madc) : (s.setMadc n x).msixEn = s.msixEn := rfl
@[simp] theorem State.setMadc_msixMask (n : Nat) (x : Madc) : (s.setMadc n x).msixMask = s.msixMask := rfl
@[simp] theorem State.setMadc_outbox (n : Nat) (x : Madc) : (s.setMadc n x).outbox = s.outbox := rfl
@[simp] theorem State.setMadc_fresh (n : Nat) (x : Madc) : (s.setMadc n x).fresh = s.fresh := rfl
@[simp] theorem State.setMadc_rd (n : Nat) (x : Madc) (j : Nat) : (s.setMadc n x).rd j = s.rd j := rfl
@[simp] theorem State.setMadc_eng (n : Nat) (x : Madc) (j : Nat) : (s.setMadc n x).eng j = s.eng j := rfl
@[simp] theorem State.setMadc_pe (n : Nat) (x : Madc) (j : Nat) : (s.setMadc n x).pe j = s.pe j := rfl
@[simp] theorem State.setMadc_hbmB (n : Nat) (x : Madc) (j : Nat) : (s.setMadc n x).hbmB j = s.hbmB j := rfl

/-! setTdc changes `tdcs` alone -/

@[simp] theorem State.setTdc_pending (k : Nat) (x : Tdc) : (s.setTdc k x).pending = s.pending := rfl
@[simp] theorem State.setTdc_bar (k : Nat) (x : Tdc) : (s.setTdc k x).bar = s.bar := rfl
@[simp] theorem State.setTdc_fsPar (k : Nat) (x : Tdc) : (s.setTdc k x).fsPar = s.fsPar := rfl
@[simp] theorem State.setTdc_hbm (k : Nat) (x : Tdc) : (s.setTdc k x).hbm = s.hbm := rfl
@[simp] theorem State.setTdc_tabs (k : Nat) (x : Tdc) : (s.setTdc k x).tabs = s.tabs := rfl
@[simp] theorem State.setTdc_now (k : Nat) (x : Tdc) : (s.setTdc k x).now = s.now := rfl
@[simp] theorem State.setTdc_wtc (k : Nat) (x : Tdc) : (s.setTdc k x).wtc = s.wtc := rfl
@[simp] theorem State.setTdc_epoch (k : Nat) (x : Tdc) : (s.setTdc k x).epoch = s.epoch := rfl
@[simp] theorem State.setTdc_armed (k : Nat) (x : Tdc) : (s.setTdc k x).armed = s.armed := rfl
@[simp] theorem State.setTdc_latch (k : Nat) (x : Tdc) : (s.setTdc k x).latch = s.latch := rfl
@[simp] theorem State.setTdc_held (k : Nat) (x : Tdc) : (s.setTdc k x).held = s.held := rfl
@[simp] theorem State.setTdc_resLatch (k : Nat) (x : Tdc) : (s.setTdc k x).resLatch = s.resLatch := rfl
@[simp] theorem State.setTdc_engs (k : Nat) (x : Tdc) : (s.setTdc k x).engs = s.engs := rfl
@[simp] theorem State.setTdc_pes (k : Nat) (x : Tdc) : (s.setTdc k x).pes = s.pes := rfl
@[simp] theorem State.setTdc_raus (k : Nat) (x : Tdc) : (s.setTdc k x).raus = s.raus := rfl
@[simp] theorem State.setTdc_rauq (k : Nat) (x : Tdc) : (s.setTdc k x).rauq = s.rauq := rfl
@[simp] theorem State.setTdc_lanes (k : Nat) (x : Tdc) : (s.setTdc k x).lanes = s.lanes := rfl
@[simp] theorem State.setTdc_settle (k : Nat) (x : Tdc) : (s.setTdc k x).settle = s.settle := rfl
@[simp] theorem State.setTdc_smus (k : Nat) (x : Tdc) : (s.setTdc k x).smus = s.smus := rfl
@[simp] theorem State.setTdc_madcs (k : Nat) (x : Tdc) : (s.setTdc k x).madcs = s.madcs := rfl
@[simp] theorem State.setTdc_txs (k : Nat) (x : Tdc) : (s.setTdc k x).txs = s.txs := rfl
@[simp] theorem State.setTdc_rxs (k : Nat) (x : Tdc) : (s.setTdc k x).rxs = s.rxs := rfl
@[simp] theorem State.setTdc_dec (k : Nat) (x : Tdc) : (s.setTdc k x).dec = s.dec := rfl
@[simp] theorem State.setTdc_kls (k : Nat) (x : Tdc) : (s.setTdc k x).kls = s.kls := rfl
@[simp] theorem State.setTdc_mcsCopy (k : Nat) (x : Tdc) : (s.setTdc k x).mcsCopy = s.mcsCopy := rfl
@[simp] theorem State.setTdc_mcsBuf (k : Nat) (x : Tdc) : (s.setTdc k x).mcsBuf = s.mcsBuf := rfl
@[simp] theorem State.setTdc_mcsJob (k : Nat) (x : Tdc) : (s.setTdc k x).mcsJob = s.mcsJob := rfl
@[simp] theorem State.setTdc_chans (k : Nat) (x : Tdc) : (s.setTdc k x).chans = s.chans := rfl
@[simp] theorem State.setTdc_filling (k : Nat) (x : Tdc) : (s.setTdc k x).filling = s.filling := rfl
@[simp] theorem State.setTdc_ceFired (k : Nat) (x : Tdc) : (s.setTdc k x).ceFired = s.ceFired := rfl
@[simp] theorem State.setTdc_seas (k : Nat) (x : Tdc) : (s.setTdc k x).seas = s.seas := rfl
@[simp] theorem State.setTdc_glbLock (k : Nat) (x : Tdc) : (s.setTdc k x).glbLock = s.glbLock := rfl
@[simp] theorem State.setTdc_blob (k : Nat) (x : Tdc) : (s.setTdc k x).blob = s.blob := rfl
@[simp] theorem State.setTdc_units (k : Nat) (x : Tdc) : (s.setTdc k x).units = s.units := rfl
@[simp] theorem State.setTdc_calW (k : Nat) (x : Tdc) : (s.setTdc k x).calW = s.calW := rfl
@[simp] theorem State.setTdc_calF (k : Nat) (x : Tdc) : (s.setTdc k x).calF = s.calF := rfl
@[simp] theorem State.setTdc_thist (k : Nat) (x : Tdc) : (s.setTdc k x).thist = s.thist := rfl
@[simp] theorem State.setTdc_faults (k : Nat) (x : Tdc) : (s.setTdc k x).faults = s.faults := rfl
@[simp] theorem State.setTdc_quietFrom (k : Nat) (x : Tdc) : (s.setTdc k x).quietFrom = s.quietFrom := rfl
@[simp] theorem State.setTdc_chn (k : Nat) (x : Tdc) : (s.setTdc k x).chn = s.chn := rfl
@[simp] theorem State.setTdc_card (k : Nat) (x : Tdc) : (s.setTdc k x).card = s.card := rfl
@[simp] theorem State.setTdc_busMaster (k : Nat) (x : Tdc) : (s.setTdc k x).busMaster = s.busMaster := rfl
@[simp] theorem State.setTdc_msixEn (k : Nat) (x : Tdc) : (s.setTdc k x).msixEn = s.msixEn := rfl
@[simp] theorem State.setTdc_msixMask (k : Nat) (x : Tdc) : (s.setTdc k x).msixMask = s.msixMask := rfl
@[simp] theorem State.setTdc_outbox (k : Nat) (x : Tdc) : (s.setTdc k x).outbox = s.outbox := rfl
@[simp] theorem State.setTdc_fresh (k : Nat) (x : Tdc) : (s.setTdc k x).fresh = s.fresh := rfl
@[simp] theorem State.setTdc_rd (k : Nat) (x : Tdc) (j : Nat) : (s.setTdc k x).rd j = s.rd j := rfl
@[simp] theorem State.setTdc_eng (k : Nat) (x : Tdc) (j : Nat) : (s.setTdc k x).eng j = s.eng j := rfl
@[simp] theorem State.setTdc_pe (k : Nat) (x : Tdc) (j : Nat) : (s.setTdc k x).pe j = s.pe j := rfl
@[simp] theorem State.setTdc_hbmB (k : Nat) (x : Tdc) (j : Nat) : (s.setTdc k x).hbmB j = s.hbmB j := rfl

/-! setTx changes `txs` alone -/

@[simp] theorem State.setTx_pending (n : Nat) (x : TxPort) : (s.setTx n x).pending = s.pending := rfl
@[simp] theorem State.setTx_bar (n : Nat) (x : TxPort) : (s.setTx n x).bar = s.bar := rfl
@[simp] theorem State.setTx_fsPar (n : Nat) (x : TxPort) : (s.setTx n x).fsPar = s.fsPar := rfl
@[simp] theorem State.setTx_hbm (n : Nat) (x : TxPort) : (s.setTx n x).hbm = s.hbm := rfl
@[simp] theorem State.setTx_tabs (n : Nat) (x : TxPort) : (s.setTx n x).tabs = s.tabs := rfl
@[simp] theorem State.setTx_now (n : Nat) (x : TxPort) : (s.setTx n x).now = s.now := rfl
@[simp] theorem State.setTx_wtc (n : Nat) (x : TxPort) : (s.setTx n x).wtc = s.wtc := rfl
@[simp] theorem State.setTx_epoch (n : Nat) (x : TxPort) : (s.setTx n x).epoch = s.epoch := rfl
@[simp] theorem State.setTx_armed (n : Nat) (x : TxPort) : (s.setTx n x).armed = s.armed := rfl
@[simp] theorem State.setTx_latch (n : Nat) (x : TxPort) : (s.setTx n x).latch = s.latch := rfl
@[simp] theorem State.setTx_held (n : Nat) (x : TxPort) : (s.setTx n x).held = s.held := rfl
@[simp] theorem State.setTx_resLatch (n : Nat) (x : TxPort) : (s.setTx n x).resLatch = s.resLatch := rfl
@[simp] theorem State.setTx_engs (n : Nat) (x : TxPort) : (s.setTx n x).engs = s.engs := rfl
@[simp] theorem State.setTx_pes (n : Nat) (x : TxPort) : (s.setTx n x).pes = s.pes := rfl
@[simp] theorem State.setTx_raus (n : Nat) (x : TxPort) : (s.setTx n x).raus = s.raus := rfl
@[simp] theorem State.setTx_rauq (n : Nat) (x : TxPort) : (s.setTx n x).rauq = s.rauq := rfl
@[simp] theorem State.setTx_lanes (n : Nat) (x : TxPort) : (s.setTx n x).lanes = s.lanes := rfl
@[simp] theorem State.setTx_settle (n : Nat) (x : TxPort) : (s.setTx n x).settle = s.settle := rfl
@[simp] theorem State.setTx_smus (n : Nat) (x : TxPort) : (s.setTx n x).smus = s.smus := rfl
@[simp] theorem State.setTx_madcs (n : Nat) (x : TxPort) : (s.setTx n x).madcs = s.madcs := rfl
@[simp] theorem State.setTx_tdcs (n : Nat) (x : TxPort) : (s.setTx n x).tdcs = s.tdcs := rfl
@[simp] theorem State.setTx_rxs (n : Nat) (x : TxPort) : (s.setTx n x).rxs = s.rxs := rfl
@[simp] theorem State.setTx_dec (n : Nat) (x : TxPort) : (s.setTx n x).dec = s.dec := rfl
@[simp] theorem State.setTx_kls (n : Nat) (x : TxPort) : (s.setTx n x).kls = s.kls := rfl
@[simp] theorem State.setTx_mcsCopy (n : Nat) (x : TxPort) : (s.setTx n x).mcsCopy = s.mcsCopy := rfl
@[simp] theorem State.setTx_mcsBuf (n : Nat) (x : TxPort) : (s.setTx n x).mcsBuf = s.mcsBuf := rfl
@[simp] theorem State.setTx_mcsJob (n : Nat) (x : TxPort) : (s.setTx n x).mcsJob = s.mcsJob := rfl
@[simp] theorem State.setTx_chans (n : Nat) (x : TxPort) : (s.setTx n x).chans = s.chans := rfl
@[simp] theorem State.setTx_filling (n : Nat) (x : TxPort) : (s.setTx n x).filling = s.filling := rfl
@[simp] theorem State.setTx_ceFired (n : Nat) (x : TxPort) : (s.setTx n x).ceFired = s.ceFired := rfl
@[simp] theorem State.setTx_seas (n : Nat) (x : TxPort) : (s.setTx n x).seas = s.seas := rfl
@[simp] theorem State.setTx_glbLock (n : Nat) (x : TxPort) : (s.setTx n x).glbLock = s.glbLock := rfl
@[simp] theorem State.setTx_blob (n : Nat) (x : TxPort) : (s.setTx n x).blob = s.blob := rfl
@[simp] theorem State.setTx_units (n : Nat) (x : TxPort) : (s.setTx n x).units = s.units := rfl
@[simp] theorem State.setTx_calW (n : Nat) (x : TxPort) : (s.setTx n x).calW = s.calW := rfl
@[simp] theorem State.setTx_calF (n : Nat) (x : TxPort) : (s.setTx n x).calF = s.calF := rfl
@[simp] theorem State.setTx_thist (n : Nat) (x : TxPort) : (s.setTx n x).thist = s.thist := rfl
@[simp] theorem State.setTx_faults (n : Nat) (x : TxPort) : (s.setTx n x).faults = s.faults := rfl
@[simp] theorem State.setTx_quietFrom (n : Nat) (x : TxPort) : (s.setTx n x).quietFrom = s.quietFrom := rfl
@[simp] theorem State.setTx_chn (n : Nat) (x : TxPort) : (s.setTx n x).chn = s.chn := rfl
@[simp] theorem State.setTx_card (n : Nat) (x : TxPort) : (s.setTx n x).card = s.card := rfl
@[simp] theorem State.setTx_busMaster (n : Nat) (x : TxPort) : (s.setTx n x).busMaster = s.busMaster := rfl
@[simp] theorem State.setTx_msixEn (n : Nat) (x : TxPort) : (s.setTx n x).msixEn = s.msixEn := rfl
@[simp] theorem State.setTx_msixMask (n : Nat) (x : TxPort) : (s.setTx n x).msixMask = s.msixMask := rfl
@[simp] theorem State.setTx_outbox (n : Nat) (x : TxPort) : (s.setTx n x).outbox = s.outbox := rfl
@[simp] theorem State.setTx_fresh (n : Nat) (x : TxPort) : (s.setTx n x).fresh = s.fresh := rfl
@[simp] theorem State.setTx_rd (n : Nat) (x : TxPort) (j : Nat) : (s.setTx n x).rd j = s.rd j := rfl
@[simp] theorem State.setTx_eng (n : Nat) (x : TxPort) (j : Nat) : (s.setTx n x).eng j = s.eng j := rfl
@[simp] theorem State.setTx_pe (n : Nat) (x : TxPort) (j : Nat) : (s.setTx n x).pe j = s.pe j := rfl
@[simp] theorem State.setTx_hbmB (n : Nat) (x : TxPort) (j : Nat) : (s.setTx n x).hbmB j = s.hbmB j := rfl

/-! setRx changes `rxs` alone -/

@[simp] theorem State.setRx_pending (n : Nat) (x : RxPort) : (s.setRx n x).pending = s.pending := rfl
@[simp] theorem State.setRx_bar (n : Nat) (x : RxPort) : (s.setRx n x).bar = s.bar := rfl
@[simp] theorem State.setRx_fsPar (n : Nat) (x : RxPort) : (s.setRx n x).fsPar = s.fsPar := rfl
@[simp] theorem State.setRx_hbm (n : Nat) (x : RxPort) : (s.setRx n x).hbm = s.hbm := rfl
@[simp] theorem State.setRx_tabs (n : Nat) (x : RxPort) : (s.setRx n x).tabs = s.tabs := rfl
@[simp] theorem State.setRx_now (n : Nat) (x : RxPort) : (s.setRx n x).now = s.now := rfl
@[simp] theorem State.setRx_wtc (n : Nat) (x : RxPort) : (s.setRx n x).wtc = s.wtc := rfl
@[simp] theorem State.setRx_epoch (n : Nat) (x : RxPort) : (s.setRx n x).epoch = s.epoch := rfl
@[simp] theorem State.setRx_armed (n : Nat) (x : RxPort) : (s.setRx n x).armed = s.armed := rfl
@[simp] theorem State.setRx_latch (n : Nat) (x : RxPort) : (s.setRx n x).latch = s.latch := rfl
@[simp] theorem State.setRx_held (n : Nat) (x : RxPort) : (s.setRx n x).held = s.held := rfl
@[simp] theorem State.setRx_resLatch (n : Nat) (x : RxPort) : (s.setRx n x).resLatch = s.resLatch := rfl
@[simp] theorem State.setRx_engs (n : Nat) (x : RxPort) : (s.setRx n x).engs = s.engs := rfl
@[simp] theorem State.setRx_pes (n : Nat) (x : RxPort) : (s.setRx n x).pes = s.pes := rfl
@[simp] theorem State.setRx_raus (n : Nat) (x : RxPort) : (s.setRx n x).raus = s.raus := rfl
@[simp] theorem State.setRx_rauq (n : Nat) (x : RxPort) : (s.setRx n x).rauq = s.rauq := rfl
@[simp] theorem State.setRx_lanes (n : Nat) (x : RxPort) : (s.setRx n x).lanes = s.lanes := rfl
@[simp] theorem State.setRx_settle (n : Nat) (x : RxPort) : (s.setRx n x).settle = s.settle := rfl
@[simp] theorem State.setRx_smus (n : Nat) (x : RxPort) : (s.setRx n x).smus = s.smus := rfl
@[simp] theorem State.setRx_madcs (n : Nat) (x : RxPort) : (s.setRx n x).madcs = s.madcs := rfl
@[simp] theorem State.setRx_tdcs (n : Nat) (x : RxPort) : (s.setRx n x).tdcs = s.tdcs := rfl
@[simp] theorem State.setRx_txs (n : Nat) (x : RxPort) : (s.setRx n x).txs = s.txs := rfl
@[simp] theorem State.setRx_dec (n : Nat) (x : RxPort) : (s.setRx n x).dec = s.dec := rfl
@[simp] theorem State.setRx_kls (n : Nat) (x : RxPort) : (s.setRx n x).kls = s.kls := rfl
@[simp] theorem State.setRx_mcsCopy (n : Nat) (x : RxPort) : (s.setRx n x).mcsCopy = s.mcsCopy := rfl
@[simp] theorem State.setRx_mcsBuf (n : Nat) (x : RxPort) : (s.setRx n x).mcsBuf = s.mcsBuf := rfl
@[simp] theorem State.setRx_mcsJob (n : Nat) (x : RxPort) : (s.setRx n x).mcsJob = s.mcsJob := rfl
@[simp] theorem State.setRx_chans (n : Nat) (x : RxPort) : (s.setRx n x).chans = s.chans := rfl
@[simp] theorem State.setRx_filling (n : Nat) (x : RxPort) : (s.setRx n x).filling = s.filling := rfl
@[simp] theorem State.setRx_ceFired (n : Nat) (x : RxPort) : (s.setRx n x).ceFired = s.ceFired := rfl
@[simp] theorem State.setRx_seas (n : Nat) (x : RxPort) : (s.setRx n x).seas = s.seas := rfl
@[simp] theorem State.setRx_glbLock (n : Nat) (x : RxPort) : (s.setRx n x).glbLock = s.glbLock := rfl
@[simp] theorem State.setRx_blob (n : Nat) (x : RxPort) : (s.setRx n x).blob = s.blob := rfl
@[simp] theorem State.setRx_units (n : Nat) (x : RxPort) : (s.setRx n x).units = s.units := rfl
@[simp] theorem State.setRx_calW (n : Nat) (x : RxPort) : (s.setRx n x).calW = s.calW := rfl
@[simp] theorem State.setRx_calF (n : Nat) (x : RxPort) : (s.setRx n x).calF = s.calF := rfl
@[simp] theorem State.setRx_thist (n : Nat) (x : RxPort) : (s.setRx n x).thist = s.thist := rfl
@[simp] theorem State.setRx_faults (n : Nat) (x : RxPort) : (s.setRx n x).faults = s.faults := rfl
@[simp] theorem State.setRx_quietFrom (n : Nat) (x : RxPort) : (s.setRx n x).quietFrom = s.quietFrom := rfl
@[simp] theorem State.setRx_chn (n : Nat) (x : RxPort) : (s.setRx n x).chn = s.chn := rfl
@[simp] theorem State.setRx_card (n : Nat) (x : RxPort) : (s.setRx n x).card = s.card := rfl
@[simp] theorem State.setRx_busMaster (n : Nat) (x : RxPort) : (s.setRx n x).busMaster = s.busMaster := rfl
@[simp] theorem State.setRx_msixEn (n : Nat) (x : RxPort) : (s.setRx n x).msixEn = s.msixEn := rfl
@[simp] theorem State.setRx_msixMask (n : Nat) (x : RxPort) : (s.setRx n x).msixMask = s.msixMask := rfl
@[simp] theorem State.setRx_outbox (n : Nat) (x : RxPort) : (s.setRx n x).outbox = s.outbox := rfl
@[simp] theorem State.setRx_fresh (n : Nat) (x : RxPort) : (s.setRx n x).fresh = s.fresh := rfl
@[simp] theorem State.setRx_rd (n : Nat) (x : RxPort) (j : Nat) : (s.setRx n x).rd j = s.rd j := rfl
@[simp] theorem State.setRx_eng (n : Nat) (x : RxPort) (j : Nat) : (s.setRx n x).eng j = s.eng j := rfl
@[simp] theorem State.setRx_pe (n : Nat) (x : RxPort) (j : Nat) : (s.setRx n x).pe j = s.pe j := rfl
@[simp] theorem State.setRx_hbmB (n : Nat) (x : RxPort) (j : Nat) : (s.setRx n x).hbmB j = s.hbmB j := rfl

/-! setKl changes `kls` alone -/

@[simp] theorem State.setKl_pending (p : Nat) (x : Kl) : (s.setKl p x).pending = s.pending := rfl
@[simp] theorem State.setKl_bar (p : Nat) (x : Kl) : (s.setKl p x).bar = s.bar := rfl
@[simp] theorem State.setKl_fsPar (p : Nat) (x : Kl) : (s.setKl p x).fsPar = s.fsPar := rfl
@[simp] theorem State.setKl_hbm (p : Nat) (x : Kl) : (s.setKl p x).hbm = s.hbm := rfl
@[simp] theorem State.setKl_tabs (p : Nat) (x : Kl) : (s.setKl p x).tabs = s.tabs := rfl
@[simp] theorem State.setKl_now (p : Nat) (x : Kl) : (s.setKl p x).now = s.now := rfl
@[simp] theorem State.setKl_wtc (p : Nat) (x : Kl) : (s.setKl p x).wtc = s.wtc := rfl
@[simp] theorem State.setKl_epoch (p : Nat) (x : Kl) : (s.setKl p x).epoch = s.epoch := rfl
@[simp] theorem State.setKl_armed (p : Nat) (x : Kl) : (s.setKl p x).armed = s.armed := rfl
@[simp] theorem State.setKl_latch (p : Nat) (x : Kl) : (s.setKl p x).latch = s.latch := rfl
@[simp] theorem State.setKl_held (p : Nat) (x : Kl) : (s.setKl p x).held = s.held := rfl
@[simp] theorem State.setKl_resLatch (p : Nat) (x : Kl) : (s.setKl p x).resLatch = s.resLatch := rfl
@[simp] theorem State.setKl_engs (p : Nat) (x : Kl) : (s.setKl p x).engs = s.engs := rfl
@[simp] theorem State.setKl_pes (p : Nat) (x : Kl) : (s.setKl p x).pes = s.pes := rfl
@[simp] theorem State.setKl_raus (p : Nat) (x : Kl) : (s.setKl p x).raus = s.raus := rfl
@[simp] theorem State.setKl_rauq (p : Nat) (x : Kl) : (s.setKl p x).rauq = s.rauq := rfl
@[simp] theorem State.setKl_lanes (p : Nat) (x : Kl) : (s.setKl p x).lanes = s.lanes := rfl
@[simp] theorem State.setKl_settle (p : Nat) (x : Kl) : (s.setKl p x).settle = s.settle := rfl
@[simp] theorem State.setKl_smus (p : Nat) (x : Kl) : (s.setKl p x).smus = s.smus := rfl
@[simp] theorem State.setKl_madcs (p : Nat) (x : Kl) : (s.setKl p x).madcs = s.madcs := rfl
@[simp] theorem State.setKl_tdcs (p : Nat) (x : Kl) : (s.setKl p x).tdcs = s.tdcs := rfl
@[simp] theorem State.setKl_txs (p : Nat) (x : Kl) : (s.setKl p x).txs = s.txs := rfl
@[simp] theorem State.setKl_rxs (p : Nat) (x : Kl) : (s.setKl p x).rxs = s.rxs := rfl
@[simp] theorem State.setKl_dec (p : Nat) (x : Kl) : (s.setKl p x).dec = s.dec := rfl
@[simp] theorem State.setKl_mcsCopy (p : Nat) (x : Kl) : (s.setKl p x).mcsCopy = s.mcsCopy := rfl
@[simp] theorem State.setKl_mcsBuf (p : Nat) (x : Kl) : (s.setKl p x).mcsBuf = s.mcsBuf := rfl
@[simp] theorem State.setKl_mcsJob (p : Nat) (x : Kl) : (s.setKl p x).mcsJob = s.mcsJob := rfl
@[simp] theorem State.setKl_chans (p : Nat) (x : Kl) : (s.setKl p x).chans = s.chans := rfl
@[simp] theorem State.setKl_filling (p : Nat) (x : Kl) : (s.setKl p x).filling = s.filling := rfl
@[simp] theorem State.setKl_ceFired (p : Nat) (x : Kl) : (s.setKl p x).ceFired = s.ceFired := rfl
@[simp] theorem State.setKl_seas (p : Nat) (x : Kl) : (s.setKl p x).seas = s.seas := rfl
@[simp] theorem State.setKl_glbLock (p : Nat) (x : Kl) : (s.setKl p x).glbLock = s.glbLock := rfl
@[simp] theorem State.setKl_blob (p : Nat) (x : Kl) : (s.setKl p x).blob = s.blob := rfl
@[simp] theorem State.setKl_units (p : Nat) (x : Kl) : (s.setKl p x).units = s.units := rfl
@[simp] theorem State.setKl_calW (p : Nat) (x : Kl) : (s.setKl p x).calW = s.calW := rfl
@[simp] theorem State.setKl_calF (p : Nat) (x : Kl) : (s.setKl p x).calF = s.calF := rfl
@[simp] theorem State.setKl_thist (p : Nat) (x : Kl) : (s.setKl p x).thist = s.thist := rfl
@[simp] theorem State.setKl_faults (p : Nat) (x : Kl) : (s.setKl p x).faults = s.faults := rfl
@[simp] theorem State.setKl_quietFrom (p : Nat) (x : Kl) : (s.setKl p x).quietFrom = s.quietFrom := rfl
@[simp] theorem State.setKl_chn (p : Nat) (x : Kl) : (s.setKl p x).chn = s.chn := rfl
@[simp] theorem State.setKl_card (p : Nat) (x : Kl) : (s.setKl p x).card = s.card := rfl
@[simp] theorem State.setKl_busMaster (p : Nat) (x : Kl) : (s.setKl p x).busMaster = s.busMaster := rfl
@[simp] theorem State.setKl_msixEn (p : Nat) (x : Kl) : (s.setKl p x).msixEn = s.msixEn := rfl
@[simp] theorem State.setKl_msixMask (p : Nat) (x : Kl) : (s.setKl p x).msixMask = s.msixMask := rfl
@[simp] theorem State.setKl_outbox (p : Nat) (x : Kl) : (s.setKl p x).outbox = s.outbox := rfl
@[simp] theorem State.setKl_fresh (p : Nat) (x : Kl) : (s.setKl p x).fresh = s.fresh := rfl
@[simp] theorem State.setKl_rd (p : Nat) (x : Kl) (j : Nat) : (s.setKl p x).rd j = s.rd j := rfl
@[simp] theorem State.setKl_eng (p : Nat) (x : Kl) (j : Nat) : (s.setKl p x).eng j = s.eng j := rfl
@[simp] theorem State.setKl_pe (p : Nat) (x : Kl) (j : Nat) : (s.setKl p x).pe j = s.pe j := rfl
@[simp] theorem State.setKl_hbmB (p : Nat) (x : Kl) (j : Nat) : (s.setKl p x).hbmB j = s.hbmB j := rfl

/-! modDec changes `dec` alone -/

@[simp] theorem State.modDec_pending (f : Dec → Dec) : (s.modDec f).pending = s.pending := rfl
@[simp] theorem State.modDec_bar (f : Dec → Dec) : (s.modDec f).bar = s.bar := rfl
@[simp] theorem State.modDec_fsPar (f : Dec → Dec) : (s.modDec f).fsPar = s.fsPar := rfl
@[simp] theorem State.modDec_hbm (f : Dec → Dec) : (s.modDec f).hbm = s.hbm := rfl
@[simp] theorem State.modDec_tabs (f : Dec → Dec) : (s.modDec f).tabs = s.tabs := rfl
@[simp] theorem State.modDec_now (f : Dec → Dec) : (s.modDec f).now = s.now := rfl
@[simp] theorem State.modDec_wtc (f : Dec → Dec) : (s.modDec f).wtc = s.wtc := rfl
@[simp] theorem State.modDec_epoch (f : Dec → Dec) : (s.modDec f).epoch = s.epoch := rfl
@[simp] theorem State.modDec_armed (f : Dec → Dec) : (s.modDec f).armed = s.armed := rfl
@[simp] theorem State.modDec_latch (f : Dec → Dec) : (s.modDec f).latch = s.latch := rfl
@[simp] theorem State.modDec_held (f : Dec → Dec) : (s.modDec f).held = s.held := rfl
@[simp] theorem State.modDec_resLatch (f : Dec → Dec) : (s.modDec f).resLatch = s.resLatch := rfl
@[simp] theorem State.modDec_engs (f : Dec → Dec) : (s.modDec f).engs = s.engs := rfl
@[simp] theorem State.modDec_pes (f : Dec → Dec) : (s.modDec f).pes = s.pes := rfl
@[simp] theorem State.modDec_raus (f : Dec → Dec) : (s.modDec f).raus = s.raus := rfl
@[simp] theorem State.modDec_rauq (f : Dec → Dec) : (s.modDec f).rauq = s.rauq := rfl
@[simp] theorem State.modDec_lanes (f : Dec → Dec) : (s.modDec f).lanes = s.lanes := rfl
@[simp] theorem State.modDec_settle (f : Dec → Dec) : (s.modDec f).settle = s.settle := rfl
@[simp] theorem State.modDec_smus (f : Dec → Dec) : (s.modDec f).smus = s.smus := rfl
@[simp] theorem State.modDec_madcs (f : Dec → Dec) : (s.modDec f).madcs = s.madcs := rfl
@[simp] theorem State.modDec_tdcs (f : Dec → Dec) : (s.modDec f).tdcs = s.tdcs := rfl
@[simp] theorem State.modDec_txs (f : Dec → Dec) : (s.modDec f).txs = s.txs := rfl
@[simp] theorem State.modDec_rxs (f : Dec → Dec) : (s.modDec f).rxs = s.rxs := rfl
@[simp] theorem State.modDec_kls (f : Dec → Dec) : (s.modDec f).kls = s.kls := rfl
@[simp] theorem State.modDec_mcsCopy (f : Dec → Dec) : (s.modDec f).mcsCopy = s.mcsCopy := rfl
@[simp] theorem State.modDec_mcsBuf (f : Dec → Dec) : (s.modDec f).mcsBuf = s.mcsBuf := rfl
@[simp] theorem State.modDec_mcsJob (f : Dec → Dec) : (s.modDec f).mcsJob = s.mcsJob := rfl
@[simp] theorem State.modDec_chans (f : Dec → Dec) : (s.modDec f).chans = s.chans := rfl
@[simp] theorem State.modDec_filling (f : Dec → Dec) : (s.modDec f).filling = s.filling := rfl
@[simp] theorem State.modDec_ceFired (f : Dec → Dec) : (s.modDec f).ceFired = s.ceFired := rfl
@[simp] theorem State.modDec_seas (f : Dec → Dec) : (s.modDec f).seas = s.seas := rfl
@[simp] theorem State.modDec_glbLock (f : Dec → Dec) : (s.modDec f).glbLock = s.glbLock := rfl
@[simp] theorem State.modDec_blob (f : Dec → Dec) : (s.modDec f).blob = s.blob := rfl
@[simp] theorem State.modDec_units (f : Dec → Dec) : (s.modDec f).units = s.units := rfl
@[simp] theorem State.modDec_calW (f : Dec → Dec) : (s.modDec f).calW = s.calW := rfl
@[simp] theorem State.modDec_calF (f : Dec → Dec) : (s.modDec f).calF = s.calF := rfl
@[simp] theorem State.modDec_thist (f : Dec → Dec) : (s.modDec f).thist = s.thist := rfl
@[simp] theorem State.modDec_faults (f : Dec → Dec) : (s.modDec f).faults = s.faults := rfl
@[simp] theorem State.modDec_quietFrom (f : Dec → Dec) : (s.modDec f).quietFrom = s.quietFrom := rfl
@[simp] theorem State.modDec_chn (f : Dec → Dec) : (s.modDec f).chn = s.chn := rfl
@[simp] theorem State.modDec_card (f : Dec → Dec) : (s.modDec f).card = s.card := rfl
@[simp] theorem State.modDec_busMaster (f : Dec → Dec) : (s.modDec f).busMaster = s.busMaster := rfl
@[simp] theorem State.modDec_msixEn (f : Dec → Dec) : (s.modDec f).msixEn = s.msixEn := rfl
@[simp] theorem State.modDec_msixMask (f : Dec → Dec) : (s.modDec f).msixMask = s.msixMask := rfl
@[simp] theorem State.modDec_outbox (f : Dec → Dec) : (s.modDec f).outbox = s.outbox := rfl
@[simp] theorem State.modDec_fresh (f : Dec → Dec) : (s.modDec f).fresh = s.fresh := rfl
@[simp] theorem State.modDec_rd (f : Dec → Dec) (j : Nat) : (s.modDec f).rd j = s.rd j := rfl
@[simp] theorem State.modDec_eng (f : Dec → Dec) (j : Nat) : (s.modDec f).eng j = s.eng j := rfl
@[simp] theorem State.modDec_pe (f : Dec → Dec) (j : Nat) : (s.modDec f).pe j = s.pe j := rfl
@[simp] theorem State.modDec_hbmB (f : Dec → Dec) (j : Nat) : (s.modDec f).hbmB j = s.hbmB j := rfl

/-! setChan changes `chans` alone -/

@[simp] theorem State.setChan_pending (k : Nat) (x : Chan) : (s.setChan k x).pending = s.pending := rfl
@[simp] theorem State.setChan_bar (k : Nat) (x : Chan) : (s.setChan k x).bar = s.bar := rfl
@[simp] theorem State.setChan_fsPar (k : Nat) (x : Chan) : (s.setChan k x).fsPar = s.fsPar := rfl
@[simp] theorem State.setChan_hbm (k : Nat) (x : Chan) : (s.setChan k x).hbm = s.hbm := rfl
@[simp] theorem State.setChan_tabs (k : Nat) (x : Chan) : (s.setChan k x).tabs = s.tabs := rfl
@[simp] theorem State.setChan_now (k : Nat) (x : Chan) : (s.setChan k x).now = s.now := rfl
@[simp] theorem State.setChan_wtc (k : Nat) (x : Chan) : (s.setChan k x).wtc = s.wtc := rfl
@[simp] theorem State.setChan_epoch (k : Nat) (x : Chan) : (s.setChan k x).epoch = s.epoch := rfl
@[simp] theorem State.setChan_armed (k : Nat) (x : Chan) : (s.setChan k x).armed = s.armed := rfl
@[simp] theorem State.setChan_latch (k : Nat) (x : Chan) : (s.setChan k x).latch = s.latch := rfl
@[simp] theorem State.setChan_held (k : Nat) (x : Chan) : (s.setChan k x).held = s.held := rfl
@[simp] theorem State.setChan_resLatch (k : Nat) (x : Chan) : (s.setChan k x).resLatch = s.resLatch := rfl
@[simp] theorem State.setChan_engs (k : Nat) (x : Chan) : (s.setChan k x).engs = s.engs := rfl
@[simp] theorem State.setChan_pes (k : Nat) (x : Chan) : (s.setChan k x).pes = s.pes := rfl
@[simp] theorem State.setChan_raus (k : Nat) (x : Chan) : (s.setChan k x).raus = s.raus := rfl
@[simp] theorem State.setChan_rauq (k : Nat) (x : Chan) : (s.setChan k x).rauq = s.rauq := rfl
@[simp] theorem State.setChan_lanes (k : Nat) (x : Chan) : (s.setChan k x).lanes = s.lanes := rfl
@[simp] theorem State.setChan_settle (k : Nat) (x : Chan) : (s.setChan k x).settle = s.settle := rfl
@[simp] theorem State.setChan_smus (k : Nat) (x : Chan) : (s.setChan k x).smus = s.smus := rfl
@[simp] theorem State.setChan_madcs (k : Nat) (x : Chan) : (s.setChan k x).madcs = s.madcs := rfl
@[simp] theorem State.setChan_tdcs (k : Nat) (x : Chan) : (s.setChan k x).tdcs = s.tdcs := rfl
@[simp] theorem State.setChan_txs (k : Nat) (x : Chan) : (s.setChan k x).txs = s.txs := rfl
@[simp] theorem State.setChan_rxs (k : Nat) (x : Chan) : (s.setChan k x).rxs = s.rxs := rfl
@[simp] theorem State.setChan_dec (k : Nat) (x : Chan) : (s.setChan k x).dec = s.dec := rfl
@[simp] theorem State.setChan_kls (k : Nat) (x : Chan) : (s.setChan k x).kls = s.kls := rfl
@[simp] theorem State.setChan_mcsCopy (k : Nat) (x : Chan) : (s.setChan k x).mcsCopy = s.mcsCopy := rfl
@[simp] theorem State.setChan_mcsBuf (k : Nat) (x : Chan) : (s.setChan k x).mcsBuf = s.mcsBuf := rfl
@[simp] theorem State.setChan_mcsJob (k : Nat) (x : Chan) : (s.setChan k x).mcsJob = s.mcsJob := rfl
@[simp] theorem State.setChan_filling (k : Nat) (x : Chan) : (s.setChan k x).filling = s.filling := rfl
@[simp] theorem State.setChan_ceFired (k : Nat) (x : Chan) : (s.setChan k x).ceFired = s.ceFired := rfl
@[simp] theorem State.setChan_seas (k : Nat) (x : Chan) : (s.setChan k x).seas = s.seas := rfl
@[simp] theorem State.setChan_glbLock (k : Nat) (x : Chan) : (s.setChan k x).glbLock = s.glbLock := rfl
@[simp] theorem State.setChan_blob (k : Nat) (x : Chan) : (s.setChan k x).blob = s.blob := rfl
@[simp] theorem State.setChan_units (k : Nat) (x : Chan) : (s.setChan k x).units = s.units := rfl
@[simp] theorem State.setChan_calW (k : Nat) (x : Chan) : (s.setChan k x).calW = s.calW := rfl
@[simp] theorem State.setChan_calF (k : Nat) (x : Chan) : (s.setChan k x).calF = s.calF := rfl
@[simp] theorem State.setChan_thist (k : Nat) (x : Chan) : (s.setChan k x).thist = s.thist := rfl
@[simp] theorem State.setChan_faults (k : Nat) (x : Chan) : (s.setChan k x).faults = s.faults := rfl
@[simp] theorem State.setChan_quietFrom (k : Nat) (x : Chan) : (s.setChan k x).quietFrom = s.quietFrom := rfl
@[simp] theorem State.setChan_chn (k : Nat) (x : Chan) : (s.setChan k x).chn = s.chn := rfl
@[simp] theorem State.setChan_card (k : Nat) (x : Chan) : (s.setChan k x).card = s.card := rfl
@[simp] theorem State.setChan_busMaster (k : Nat) (x : Chan) : (s.setChan k x).busMaster = s.busMaster := rfl
@[simp] theorem State.setChan_msixEn (k : Nat) (x : Chan) : (s.setChan k x).msixEn = s.msixEn := rfl
@[simp] theorem State.setChan_msixMask (k : Nat) (x : Chan) : (s.setChan k x).msixMask = s.msixMask := rfl
@[simp] theorem State.setChan_outbox (k : Nat) (x : Chan) : (s.setChan k x).outbox = s.outbox := rfl
@[simp] theorem State.setChan_fresh (k : Nat) (x : Chan) : (s.setChan k x).fresh = s.fresh := rfl
@[simp] theorem State.setChan_rd (k : Nat) (x : Chan) (j : Nat) : (s.setChan k x).rd j = s.rd j := rfl
@[simp] theorem State.setChan_eng (k : Nat) (x : Chan) (j : Nat) : (s.setChan k x).eng j = s.eng j := rfl
@[simp] theorem State.setChan_pe (k : Nat) (x : Chan) (j : Nat) : (s.setChan k x).pe j = s.pe j := rfl
@[simp] theorem State.setChan_hbmB (k : Nat) (x : Chan) (j : Nat) : (s.setChan k x).hbmB j = s.hbmB j := rfl

/-! setUnit changes `units` alone -/

@[simp] theorem State.setUnit_pending (u : Nat) (x : CalUnit) : (s.setUnit u x).pending = s.pending := rfl
@[simp] theorem State.setUnit_bar (u : Nat) (x : CalUnit) : (s.setUnit u x).bar = s.bar := rfl
@[simp] theorem State.setUnit_fsPar (u : Nat) (x : CalUnit) : (s.setUnit u x).fsPar = s.fsPar := rfl
@[simp] theorem State.setUnit_hbm (u : Nat) (x : CalUnit) : (s.setUnit u x).hbm = s.hbm := rfl
@[simp] theorem State.setUnit_tabs (u : Nat) (x : CalUnit) : (s.setUnit u x).tabs = s.tabs := rfl
@[simp] theorem State.setUnit_now (u : Nat) (x : CalUnit) : (s.setUnit u x).now = s.now := rfl
@[simp] theorem State.setUnit_wtc (u : Nat) (x : CalUnit) : (s.setUnit u x).wtc = s.wtc := rfl
@[simp] theorem State.setUnit_epoch (u : Nat) (x : CalUnit) : (s.setUnit u x).epoch = s.epoch := rfl
@[simp] theorem State.setUnit_armed (u : Nat) (x : CalUnit) : (s.setUnit u x).armed = s.armed := rfl
@[simp] theorem State.setUnit_latch (u : Nat) (x : CalUnit) : (s.setUnit u x).latch = s.latch := rfl
@[simp] theorem State.setUnit_held (u : Nat) (x : CalUnit) : (s.setUnit u x).held = s.held := rfl
@[simp] theorem State.setUnit_resLatch (u : Nat) (x : CalUnit) : (s.setUnit u x).resLatch = s.resLatch := rfl
@[simp] theorem State.setUnit_engs (u : Nat) (x : CalUnit) : (s.setUnit u x).engs = s.engs := rfl
@[simp] theorem State.setUnit_pes (u : Nat) (x : CalUnit) : (s.setUnit u x).pes = s.pes := rfl
@[simp] theorem State.setUnit_raus (u : Nat) (x : CalUnit) : (s.setUnit u x).raus = s.raus := rfl
@[simp] theorem State.setUnit_rauq (u : Nat) (x : CalUnit) : (s.setUnit u x).rauq = s.rauq := rfl
@[simp] theorem State.setUnit_lanes (u : Nat) (x : CalUnit) : (s.setUnit u x).lanes = s.lanes := rfl
@[simp] theorem State.setUnit_settle (u : Nat) (x : CalUnit) : (s.setUnit u x).settle = s.settle := rfl
@[simp] theorem State.setUnit_smus (u : Nat) (x : CalUnit) : (s.setUnit u x).smus = s.smus := rfl
@[simp] theorem State.setUnit_madcs (u : Nat) (x : CalUnit) : (s.setUnit u x).madcs = s.madcs := rfl
@[simp] theorem State.setUnit_tdcs (u : Nat) (x : CalUnit) : (s.setUnit u x).tdcs = s.tdcs := rfl
@[simp] theorem State.setUnit_txs (u : Nat) (x : CalUnit) : (s.setUnit u x).txs = s.txs := rfl
@[simp] theorem State.setUnit_rxs (u : Nat) (x : CalUnit) : (s.setUnit u x).rxs = s.rxs := rfl
@[simp] theorem State.setUnit_dec (u : Nat) (x : CalUnit) : (s.setUnit u x).dec = s.dec := rfl
@[simp] theorem State.setUnit_kls (u : Nat) (x : CalUnit) : (s.setUnit u x).kls = s.kls := rfl
@[simp] theorem State.setUnit_mcsCopy (u : Nat) (x : CalUnit) : (s.setUnit u x).mcsCopy = s.mcsCopy := rfl
@[simp] theorem State.setUnit_mcsBuf (u : Nat) (x : CalUnit) : (s.setUnit u x).mcsBuf = s.mcsBuf := rfl
@[simp] theorem State.setUnit_mcsJob (u : Nat) (x : CalUnit) : (s.setUnit u x).mcsJob = s.mcsJob := rfl
@[simp] theorem State.setUnit_chans (u : Nat) (x : CalUnit) : (s.setUnit u x).chans = s.chans := rfl
@[simp] theorem State.setUnit_filling (u : Nat) (x : CalUnit) : (s.setUnit u x).filling = s.filling := rfl
@[simp] theorem State.setUnit_ceFired (u : Nat) (x : CalUnit) : (s.setUnit u x).ceFired = s.ceFired := rfl
@[simp] theorem State.setUnit_seas (u : Nat) (x : CalUnit) : (s.setUnit u x).seas = s.seas := rfl
@[simp] theorem State.setUnit_glbLock (u : Nat) (x : CalUnit) : (s.setUnit u x).glbLock = s.glbLock := rfl
@[simp] theorem State.setUnit_blob (u : Nat) (x : CalUnit) : (s.setUnit u x).blob = s.blob := rfl
@[simp] theorem State.setUnit_calW (u : Nat) (x : CalUnit) : (s.setUnit u x).calW = s.calW := rfl
@[simp] theorem State.setUnit_calF (u : Nat) (x : CalUnit) : (s.setUnit u x).calF = s.calF := rfl
@[simp] theorem State.setUnit_thist (u : Nat) (x : CalUnit) : (s.setUnit u x).thist = s.thist := rfl
@[simp] theorem State.setUnit_faults (u : Nat) (x : CalUnit) : (s.setUnit u x).faults = s.faults := rfl
@[simp] theorem State.setUnit_quietFrom (u : Nat) (x : CalUnit) : (s.setUnit u x).quietFrom = s.quietFrom := rfl
@[simp] theorem State.setUnit_chn (u : Nat) (x : CalUnit) : (s.setUnit u x).chn = s.chn := rfl
@[simp] theorem State.setUnit_card (u : Nat) (x : CalUnit) : (s.setUnit u x).card = s.card := rfl
@[simp] theorem State.setUnit_busMaster (u : Nat) (x : CalUnit) : (s.setUnit u x).busMaster = s.busMaster := rfl
@[simp] theorem State.setUnit_msixEn (u : Nat) (x : CalUnit) : (s.setUnit u x).msixEn = s.msixEn := rfl
@[simp] theorem State.setUnit_msixMask (u : Nat) (x : CalUnit) : (s.setUnit u x).msixMask = s.msixMask := rfl
@[simp] theorem State.setUnit_outbox (u : Nat) (x : CalUnit) : (s.setUnit u x).outbox = s.outbox := rfl
@[simp] theorem State.setUnit_fresh (u : Nat) (x : CalUnit) : (s.setUnit u x).fresh = s.fresh := rfl
@[simp] theorem State.setUnit_rd (u : Nat) (x : CalUnit) (j : Nat) : (s.setUnit u x).rd j = s.rd j := rfl
@[simp] theorem State.setUnit_eng (u : Nat) (x : CalUnit) (j : Nat) : (s.setUnit u x).eng j = s.eng j := rfl
@[simp] theorem State.setUnit_pe (u : Nat) (x : CalUnit) (j : Nat) : (s.setUnit u x).pe j = s.pe j := rfl
@[simp] theorem State.setUnit_hbmB (u : Nat) (x : CalUnit) (j : Nat) : (s.setUnit u x).hbmB j = s.hbmB j := rfl

/-! modSeas changes `seas` alone -/

@[simp] theorem State.modSeas_pending (f : Seas → Seas) : (s.modSeas f).pending = s.pending := rfl
@[simp] theorem State.modSeas_bar (f : Seas → Seas) : (s.modSeas f).bar = s.bar := rfl
@[simp] theorem State.modSeas_fsPar (f : Seas → Seas) : (s.modSeas f).fsPar = s.fsPar := rfl
@[simp] theorem State.modSeas_hbm (f : Seas → Seas) : (s.modSeas f).hbm = s.hbm := rfl
@[simp] theorem State.modSeas_tabs (f : Seas → Seas) : (s.modSeas f).tabs = s.tabs := rfl
@[simp] theorem State.modSeas_now (f : Seas → Seas) : (s.modSeas f).now = s.now := rfl
@[simp] theorem State.modSeas_wtc (f : Seas → Seas) : (s.modSeas f).wtc = s.wtc := rfl
@[simp] theorem State.modSeas_epoch (f : Seas → Seas) : (s.modSeas f).epoch = s.epoch := rfl
@[simp] theorem State.modSeas_armed (f : Seas → Seas) : (s.modSeas f).armed = s.armed := rfl
@[simp] theorem State.modSeas_latch (f : Seas → Seas) : (s.modSeas f).latch = s.latch := rfl
@[simp] theorem State.modSeas_held (f : Seas → Seas) : (s.modSeas f).held = s.held := rfl
@[simp] theorem State.modSeas_resLatch (f : Seas → Seas) : (s.modSeas f).resLatch = s.resLatch := rfl
@[simp] theorem State.modSeas_engs (f : Seas → Seas) : (s.modSeas f).engs = s.engs := rfl
@[simp] theorem State.modSeas_pes (f : Seas → Seas) : (s.modSeas f).pes = s.pes := rfl
@[simp] theorem State.modSeas_raus (f : Seas → Seas) : (s.modSeas f).raus = s.raus := rfl
@[simp] theorem State.modSeas_rauq (f : Seas → Seas) : (s.modSeas f).rauq = s.rauq := rfl
@[simp] theorem State.modSeas_lanes (f : Seas → Seas) : (s.modSeas f).lanes = s.lanes := rfl
@[simp] theorem State.modSeas_settle (f : Seas → Seas) : (s.modSeas f).settle = s.settle := rfl
@[simp] theorem State.modSeas_smus (f : Seas → Seas) : (s.modSeas f).smus = s.smus := rfl
@[simp] theorem State.modSeas_madcs (f : Seas → Seas) : (s.modSeas f).madcs = s.madcs := rfl
@[simp] theorem State.modSeas_tdcs (f : Seas → Seas) : (s.modSeas f).tdcs = s.tdcs := rfl
@[simp] theorem State.modSeas_txs (f : Seas → Seas) : (s.modSeas f).txs = s.txs := rfl
@[simp] theorem State.modSeas_rxs (f : Seas → Seas) : (s.modSeas f).rxs = s.rxs := rfl
@[simp] theorem State.modSeas_dec (f : Seas → Seas) : (s.modSeas f).dec = s.dec := rfl
@[simp] theorem State.modSeas_kls (f : Seas → Seas) : (s.modSeas f).kls = s.kls := rfl
@[simp] theorem State.modSeas_mcsCopy (f : Seas → Seas) : (s.modSeas f).mcsCopy = s.mcsCopy := rfl
@[simp] theorem State.modSeas_mcsBuf (f : Seas → Seas) : (s.modSeas f).mcsBuf = s.mcsBuf := rfl
@[simp] theorem State.modSeas_mcsJob (f : Seas → Seas) : (s.modSeas f).mcsJob = s.mcsJob := rfl
@[simp] theorem State.modSeas_chans (f : Seas → Seas) : (s.modSeas f).chans = s.chans := rfl
@[simp] theorem State.modSeas_filling (f : Seas → Seas) : (s.modSeas f).filling = s.filling := rfl
@[simp] theorem State.modSeas_ceFired (f : Seas → Seas) : (s.modSeas f).ceFired = s.ceFired := rfl
@[simp] theorem State.modSeas_glbLock (f : Seas → Seas) : (s.modSeas f).glbLock = s.glbLock := rfl
@[simp] theorem State.modSeas_blob (f : Seas → Seas) : (s.modSeas f).blob = s.blob := rfl
@[simp] theorem State.modSeas_units (f : Seas → Seas) : (s.modSeas f).units = s.units := rfl
@[simp] theorem State.modSeas_calW (f : Seas → Seas) : (s.modSeas f).calW = s.calW := rfl
@[simp] theorem State.modSeas_calF (f : Seas → Seas) : (s.modSeas f).calF = s.calF := rfl
@[simp] theorem State.modSeas_thist (f : Seas → Seas) : (s.modSeas f).thist = s.thist := rfl
@[simp] theorem State.modSeas_faults (f : Seas → Seas) : (s.modSeas f).faults = s.faults := rfl
@[simp] theorem State.modSeas_quietFrom (f : Seas → Seas) : (s.modSeas f).quietFrom = s.quietFrom := rfl
@[simp] theorem State.modSeas_chn (f : Seas → Seas) : (s.modSeas f).chn = s.chn := rfl
@[simp] theorem State.modSeas_card (f : Seas → Seas) : (s.modSeas f).card = s.card := rfl
@[simp] theorem State.modSeas_busMaster (f : Seas → Seas) : (s.modSeas f).busMaster = s.busMaster := rfl
@[simp] theorem State.modSeas_msixEn (f : Seas → Seas) : (s.modSeas f).msixEn = s.msixEn := rfl
@[simp] theorem State.modSeas_msixMask (f : Seas → Seas) : (s.modSeas f).msixMask = s.msixMask := rfl
@[simp] theorem State.modSeas_outbox (f : Seas → Seas) : (s.modSeas f).outbox = s.outbox := rfl
@[simp] theorem State.modSeas_fresh (f : Seas → Seas) : (s.modSeas f).fresh = s.fresh := rfl
@[simp] theorem State.modSeas_rd (f : Seas → Seas) (j : Nat) : (s.modSeas f).rd j = s.rd j := rfl
@[simp] theorem State.modSeas_eng (f : Seas → Seas) (j : Nat) : (s.modSeas f).eng j = s.eng j := rfl
@[simp] theorem State.modSeas_pe (f : Seas → Seas) (j : Nat) : (s.modSeas f).pe j = s.pe j := rfl
@[simp] theorem State.modSeas_hbmB (f : Seas → Seas) (j : Nat) : (s.modSeas f).hbmB j = s.hbmB j := rfl

/-! modCard changes `card` alone -/

@[simp] theorem State.modCard_pending (f : Card → Card) : (s.modCard f).pending = s.pending := rfl
@[simp] theorem State.modCard_bar (f : Card → Card) : (s.modCard f).bar = s.bar := rfl
@[simp] theorem State.modCard_fsPar (f : Card → Card) : (s.modCard f).fsPar = s.fsPar := rfl
@[simp] theorem State.modCard_hbm (f : Card → Card) : (s.modCard f).hbm = s.hbm := rfl
@[simp] theorem State.modCard_tabs (f : Card → Card) : (s.modCard f).tabs = s.tabs := rfl
@[simp] theorem State.modCard_now (f : Card → Card) : (s.modCard f).now = s.now := rfl
@[simp] theorem State.modCard_wtc (f : Card → Card) : (s.modCard f).wtc = s.wtc := rfl
@[simp] theorem State.modCard_epoch (f : Card → Card) : (s.modCard f).epoch = s.epoch := rfl
@[simp] theorem State.modCard_armed (f : Card → Card) : (s.modCard f).armed = s.armed := rfl
@[simp] theorem State.modCard_latch (f : Card → Card) : (s.modCard f).latch = s.latch := rfl
@[simp] theorem State.modCard_held (f : Card → Card) : (s.modCard f).held = s.held := rfl
@[simp] theorem State.modCard_resLatch (f : Card → Card) : (s.modCard f).resLatch = s.resLatch := rfl
@[simp] theorem State.modCard_engs (f : Card → Card) : (s.modCard f).engs = s.engs := rfl
@[simp] theorem State.modCard_pes (f : Card → Card) : (s.modCard f).pes = s.pes := rfl
@[simp] theorem State.modCard_raus (f : Card → Card) : (s.modCard f).raus = s.raus := rfl
@[simp] theorem State.modCard_rauq (f : Card → Card) : (s.modCard f).rauq = s.rauq := rfl
@[simp] theorem State.modCard_lanes (f : Card → Card) : (s.modCard f).lanes = s.lanes := rfl
@[simp] theorem State.modCard_settle (f : Card → Card) : (s.modCard f).settle = s.settle := rfl
@[simp] theorem State.modCard_smus (f : Card → Card) : (s.modCard f).smus = s.smus := rfl
@[simp] theorem State.modCard_madcs (f : Card → Card) : (s.modCard f).madcs = s.madcs := rfl
@[simp] theorem State.modCard_tdcs (f : Card → Card) : (s.modCard f).tdcs = s.tdcs := rfl
@[simp] theorem State.modCard_txs (f : Card → Card) : (s.modCard f).txs = s.txs := rfl
@[simp] theorem State.modCard_rxs (f : Card → Card) : (s.modCard f).rxs = s.rxs := rfl
@[simp] theorem State.modCard_dec (f : Card → Card) : (s.modCard f).dec = s.dec := rfl
@[simp] theorem State.modCard_kls (f : Card → Card) : (s.modCard f).kls = s.kls := rfl
@[simp] theorem State.modCard_mcsCopy (f : Card → Card) : (s.modCard f).mcsCopy = s.mcsCopy := rfl
@[simp] theorem State.modCard_mcsBuf (f : Card → Card) : (s.modCard f).mcsBuf = s.mcsBuf := rfl
@[simp] theorem State.modCard_mcsJob (f : Card → Card) : (s.modCard f).mcsJob = s.mcsJob := rfl
@[simp] theorem State.modCard_chans (f : Card → Card) : (s.modCard f).chans = s.chans := rfl
@[simp] theorem State.modCard_filling (f : Card → Card) : (s.modCard f).filling = s.filling := rfl
@[simp] theorem State.modCard_ceFired (f : Card → Card) : (s.modCard f).ceFired = s.ceFired := rfl
@[simp] theorem State.modCard_seas (f : Card → Card) : (s.modCard f).seas = s.seas := rfl
@[simp] theorem State.modCard_glbLock (f : Card → Card) : (s.modCard f).glbLock = s.glbLock := rfl
@[simp] theorem State.modCard_blob (f : Card → Card) : (s.modCard f).blob = s.blob := rfl
@[simp] theorem State.modCard_units (f : Card → Card) : (s.modCard f).units = s.units := rfl
@[simp] theorem State.modCard_calW (f : Card → Card) : (s.modCard f).calW = s.calW := rfl
@[simp] theorem State.modCard_calF (f : Card → Card) : (s.modCard f).calF = s.calF := rfl
@[simp] theorem State.modCard_thist (f : Card → Card) : (s.modCard f).thist = s.thist := rfl
@[simp] theorem State.modCard_faults (f : Card → Card) : (s.modCard f).faults = s.faults := rfl
@[simp] theorem State.modCard_quietFrom (f : Card → Card) : (s.modCard f).quietFrom = s.quietFrom := rfl
@[simp] theorem State.modCard_chn (f : Card → Card) : (s.modCard f).chn = s.chn := rfl
@[simp] theorem State.modCard_busMaster (f : Card → Card) : (s.modCard f).busMaster = s.busMaster := rfl
@[simp] theorem State.modCard_msixEn (f : Card → Card) : (s.modCard f).msixEn = s.msixEn := rfl
@[simp] theorem State.modCard_msixMask (f : Card → Card) : (s.modCard f).msixMask = s.msixMask := rfl
@[simp] theorem State.modCard_outbox (f : Card → Card) : (s.modCard f).outbox = s.outbox := rfl
@[simp] theorem State.modCard_fresh (f : Card → Card) : (s.modCard f).fresh = s.fresh := rfl
@[simp] theorem State.modCard_rd (f : Card → Card) (j : Nat) : (s.modCard f).rd j = s.rd j := rfl
@[simp] theorem State.modCard_eng (f : Card → Card) (j : Nat) : (s.modCard f).eng j = s.eng j := rfl
@[simp] theorem State.modCard_pe (f : Card → Card) (j : Nat) : (s.modCard f).pe j = s.pe j := rfl
@[simp] theorem State.modCard_hbmB (f : Card → Card) (j : Nat) : (s.modCard f).hbmB j = s.hbmB j := rfl

/-! modChn changes `chn` alone -/

@[simp] theorem State.modChn_pending (f : Chain → Chain) : (s.modChn f).pending = s.pending := rfl
@[simp] theorem State.modChn_bar (f : Chain → Chain) : (s.modChn f).bar = s.bar := rfl
@[simp] theorem State.modChn_fsPar (f : Chain → Chain) : (s.modChn f).fsPar = s.fsPar := rfl
@[simp] theorem State.modChn_hbm (f : Chain → Chain) : (s.modChn f).hbm = s.hbm := rfl
@[simp] theorem State.modChn_tabs (f : Chain → Chain) : (s.modChn f).tabs = s.tabs := rfl
@[simp] theorem State.modChn_now (f : Chain → Chain) : (s.modChn f).now = s.now := rfl
@[simp] theorem State.modChn_wtc (f : Chain → Chain) : (s.modChn f).wtc = s.wtc := rfl
@[simp] theorem State.modChn_epoch (f : Chain → Chain) : (s.modChn f).epoch = s.epoch := rfl
@[simp] theorem State.modChn_armed (f : Chain → Chain) : (s.modChn f).armed = s.armed := rfl
@[simp] theorem State.modChn_latch (f : Chain → Chain) : (s.modChn f).latch = s.latch := rfl
@[simp] theorem State.modChn_held (f : Chain → Chain) : (s.modChn f).held = s.held := rfl
@[simp] theorem State.modChn_resLatch (f : Chain → Chain) : (s.modChn f).resLatch = s.resLatch := rfl
@[simp] theorem State.modChn_engs (f : Chain → Chain) : (s.modChn f).engs = s.engs := rfl
@[simp] theorem State.modChn_pes (f : Chain → Chain) : (s.modChn f).pes = s.pes := rfl
@[simp] theorem State.modChn_raus (f : Chain → Chain) : (s.modChn f).raus = s.raus := rfl
@[simp] theorem State.modChn_rauq (f : Chain → Chain) : (s.modChn f).rauq = s.rauq := rfl
@[simp] theorem State.modChn_lanes (f : Chain → Chain) : (s.modChn f).lanes = s.lanes := rfl
@[simp] theorem State.modChn_settle (f : Chain → Chain) : (s.modChn f).settle = s.settle := rfl
@[simp] theorem State.modChn_smus (f : Chain → Chain) : (s.modChn f).smus = s.smus := rfl
@[simp] theorem State.modChn_madcs (f : Chain → Chain) : (s.modChn f).madcs = s.madcs := rfl
@[simp] theorem State.modChn_tdcs (f : Chain → Chain) : (s.modChn f).tdcs = s.tdcs := rfl
@[simp] theorem State.modChn_txs (f : Chain → Chain) : (s.modChn f).txs = s.txs := rfl
@[simp] theorem State.modChn_rxs (f : Chain → Chain) : (s.modChn f).rxs = s.rxs := rfl
@[simp] theorem State.modChn_dec (f : Chain → Chain) : (s.modChn f).dec = s.dec := rfl
@[simp] theorem State.modChn_kls (f : Chain → Chain) : (s.modChn f).kls = s.kls := rfl
@[simp] theorem State.modChn_mcsCopy (f : Chain → Chain) : (s.modChn f).mcsCopy = s.mcsCopy := rfl
@[simp] theorem State.modChn_mcsBuf (f : Chain → Chain) : (s.modChn f).mcsBuf = s.mcsBuf := rfl
@[simp] theorem State.modChn_mcsJob (f : Chain → Chain) : (s.modChn f).mcsJob = s.mcsJob := rfl
@[simp] theorem State.modChn_chans (f : Chain → Chain) : (s.modChn f).chans = s.chans := rfl
@[simp] theorem State.modChn_filling (f : Chain → Chain) : (s.modChn f).filling = s.filling := rfl
@[simp] theorem State.modChn_ceFired (f : Chain → Chain) : (s.modChn f).ceFired = s.ceFired := rfl
@[simp] theorem State.modChn_seas (f : Chain → Chain) : (s.modChn f).seas = s.seas := rfl
@[simp] theorem State.modChn_glbLock (f : Chain → Chain) : (s.modChn f).glbLock = s.glbLock := rfl
@[simp] theorem State.modChn_blob (f : Chain → Chain) : (s.modChn f).blob = s.blob := rfl
@[simp] theorem State.modChn_units (f : Chain → Chain) : (s.modChn f).units = s.units := rfl
@[simp] theorem State.modChn_calW (f : Chain → Chain) : (s.modChn f).calW = s.calW := rfl
@[simp] theorem State.modChn_calF (f : Chain → Chain) : (s.modChn f).calF = s.calF := rfl
@[simp] theorem State.modChn_thist (f : Chain → Chain) : (s.modChn f).thist = s.thist := rfl
@[simp] theorem State.modChn_faults (f : Chain → Chain) : (s.modChn f).faults = s.faults := rfl
@[simp] theorem State.modChn_quietFrom (f : Chain → Chain) : (s.modChn f).quietFrom = s.quietFrom := rfl
@[simp] theorem State.modChn_card (f : Chain → Chain) : (s.modChn f).card = s.card := rfl
@[simp] theorem State.modChn_busMaster (f : Chain → Chain) : (s.modChn f).busMaster = s.busMaster := rfl
@[simp] theorem State.modChn_msixEn (f : Chain → Chain) : (s.modChn f).msixEn = s.msixEn := rfl
@[simp] theorem State.modChn_msixMask (f : Chain → Chain) : (s.modChn f).msixMask = s.msixMask := rfl
@[simp] theorem State.modChn_outbox (f : Chain → Chain) : (s.modChn f).outbox = s.outbox := rfl
@[simp] theorem State.modChn_fresh (f : Chain → Chain) : (s.modChn f).fresh = s.fresh := rfl
@[simp] theorem State.modChn_rd (f : Chain → Chain) (j : Nat) : (s.modChn f).rd j = s.rd j := rfl
@[simp] theorem State.modChn_eng (f : Chain → Chain) (j : Nat) : (s.modChn f).eng j = s.eng j := rfl
@[simp] theorem State.modChn_pe (f : Chain → Chain) (j : Nat) : (s.modChn f).pe j = s.pe j := rfl
@[simp] theorem State.modChn_hbmB (f : Chain → Chain) (j : Nat) : (s.modChn f).hbmB j = s.hbmB j := rfl

/-! setTab changes `tabs` alone -/

@[simp] theorem State.setTab_pending (k : Nat) (v : Word64) : (s.setTab k v).pending = s.pending := rfl
@[simp] theorem State.setTab_bar (k : Nat) (v : Word64) : (s.setTab k v).bar = s.bar := rfl
@[simp] theorem State.setTab_fsPar (k : Nat) (v : Word64) : (s.setTab k v).fsPar = s.fsPar := rfl
@[simp] theorem State.setTab_hbm (k : Nat) (v : Word64) : (s.setTab k v).hbm = s.hbm := rfl
@[simp] theorem State.setTab_now (k : Nat) (v : Word64) : (s.setTab k v).now = s.now := rfl
@[simp] theorem State.setTab_wtc (k : Nat) (v : Word64) : (s.setTab k v).wtc = s.wtc := rfl
@[simp] theorem State.setTab_epoch (k : Nat) (v : Word64) : (s.setTab k v).epoch = s.epoch := rfl
@[simp] theorem State.setTab_armed (k : Nat) (v : Word64) : (s.setTab k v).armed = s.armed := rfl
@[simp] theorem State.setTab_latch (k : Nat) (v : Word64) : (s.setTab k v).latch = s.latch := rfl
@[simp] theorem State.setTab_held (k : Nat) (v : Word64) : (s.setTab k v).held = s.held := rfl
@[simp] theorem State.setTab_resLatch (k : Nat) (v : Word64) : (s.setTab k v).resLatch = s.resLatch := rfl
@[simp] theorem State.setTab_engs (k : Nat) (v : Word64) : (s.setTab k v).engs = s.engs := rfl
@[simp] theorem State.setTab_pes (k : Nat) (v : Word64) : (s.setTab k v).pes = s.pes := rfl
@[simp] theorem State.setTab_raus (k : Nat) (v : Word64) : (s.setTab k v).raus = s.raus := rfl
@[simp] theorem State.setTab_rauq (k : Nat) (v : Word64) : (s.setTab k v).rauq = s.rauq := rfl
@[simp] theorem State.setTab_lanes (k : Nat) (v : Word64) : (s.setTab k v).lanes = s.lanes := rfl
@[simp] theorem State.setTab_settle (k : Nat) (v : Word64) : (s.setTab k v).settle = s.settle := rfl
@[simp] theorem State.setTab_smus (k : Nat) (v : Word64) : (s.setTab k v).smus = s.smus := rfl
@[simp] theorem State.setTab_madcs (k : Nat) (v : Word64) : (s.setTab k v).madcs = s.madcs := rfl
@[simp] theorem State.setTab_tdcs (k : Nat) (v : Word64) : (s.setTab k v).tdcs = s.tdcs := rfl
@[simp] theorem State.setTab_txs (k : Nat) (v : Word64) : (s.setTab k v).txs = s.txs := rfl
@[simp] theorem State.setTab_rxs (k : Nat) (v : Word64) : (s.setTab k v).rxs = s.rxs := rfl
@[simp] theorem State.setTab_dec (k : Nat) (v : Word64) : (s.setTab k v).dec = s.dec := rfl
@[simp] theorem State.setTab_kls (k : Nat) (v : Word64) : (s.setTab k v).kls = s.kls := rfl
@[simp] theorem State.setTab_mcsCopy (k : Nat) (v : Word64) : (s.setTab k v).mcsCopy = s.mcsCopy := rfl
@[simp] theorem State.setTab_mcsBuf (k : Nat) (v : Word64) : (s.setTab k v).mcsBuf = s.mcsBuf := rfl
@[simp] theorem State.setTab_mcsJob (k : Nat) (v : Word64) : (s.setTab k v).mcsJob = s.mcsJob := rfl
@[simp] theorem State.setTab_chans (k : Nat) (v : Word64) : (s.setTab k v).chans = s.chans := rfl
@[simp] theorem State.setTab_filling (k : Nat) (v : Word64) : (s.setTab k v).filling = s.filling := rfl
@[simp] theorem State.setTab_ceFired (k : Nat) (v : Word64) : (s.setTab k v).ceFired = s.ceFired := rfl
@[simp] theorem State.setTab_seas (k : Nat) (v : Word64) : (s.setTab k v).seas = s.seas := rfl
@[simp] theorem State.setTab_glbLock (k : Nat) (v : Word64) : (s.setTab k v).glbLock = s.glbLock := rfl
@[simp] theorem State.setTab_blob (k : Nat) (v : Word64) : (s.setTab k v).blob = s.blob := rfl
@[simp] theorem State.setTab_units (k : Nat) (v : Word64) : (s.setTab k v).units = s.units := rfl
@[simp] theorem State.setTab_calW (k : Nat) (v : Word64) : (s.setTab k v).calW = s.calW := rfl
@[simp] theorem State.setTab_calF (k : Nat) (v : Word64) : (s.setTab k v).calF = s.calF := rfl
@[simp] theorem State.setTab_thist (k : Nat) (v : Word64) : (s.setTab k v).thist = s.thist := rfl
@[simp] theorem State.setTab_faults (k : Nat) (v : Word64) : (s.setTab k v).faults = s.faults := rfl
@[simp] theorem State.setTab_quietFrom (k : Nat) (v : Word64) : (s.setTab k v).quietFrom = s.quietFrom := rfl
@[simp] theorem State.setTab_chn (k : Nat) (v : Word64) : (s.setTab k v).chn = s.chn := rfl
@[simp] theorem State.setTab_card (k : Nat) (v : Word64) : (s.setTab k v).card = s.card := rfl
@[simp] theorem State.setTab_busMaster (k : Nat) (v : Word64) : (s.setTab k v).busMaster = s.busMaster := rfl
@[simp] theorem State.setTab_msixEn (k : Nat) (v : Word64) : (s.setTab k v).msixEn = s.msixEn := rfl
@[simp] theorem State.setTab_msixMask (k : Nat) (v : Word64) : (s.setTab k v).msixMask = s.msixMask := rfl
@[simp] theorem State.setTab_outbox (k : Nat) (v : Word64) : (s.setTab k v).outbox = s.outbox := rfl
@[simp] theorem State.setTab_fresh (k : Nat) (v : Word64) : (s.setTab k v).fresh = s.fresh := rfl
@[simp] theorem State.setTab_rd (k : Nat) (v : Word64) (j : Nat) : (s.setTab k v).rd j = s.rd j := rfl
@[simp] theorem State.setTab_eng (k : Nat) (v : Word64) (j : Nat) : (s.setTab k v).eng j = s.eng j := rfl
@[simp] theorem State.setTab_pe (k : Nat) (v : Word64) (j : Nat) : (s.setTab k v).pe j = s.pe j := rfl
@[simp] theorem State.setTab_hbmB (k : Nat) (v : Word64) (j : Nat) : (s.setTab k v).hbmB j = s.hbmB j := rfl

/-! hbmSet changes `hbm` alone -/

@[simp] theorem State.hbmSet_pending (a : Nat) (b : Byte) : (s.hbmSet a b).pending = s.pending := rfl
@[simp] theorem State.hbmSet_bar (a : Nat) (b : Byte) : (s.hbmSet a b).bar = s.bar := rfl
@[simp] theorem State.hbmSet_fsPar (a : Nat) (b : Byte) : (s.hbmSet a b).fsPar = s.fsPar := rfl
@[simp] theorem State.hbmSet_tabs (a : Nat) (b : Byte) : (s.hbmSet a b).tabs = s.tabs := rfl
@[simp] theorem State.hbmSet_now (a : Nat) (b : Byte) : (s.hbmSet a b).now = s.now := rfl
@[simp] theorem State.hbmSet_wtc (a : Nat) (b : Byte) : (s.hbmSet a b).wtc = s.wtc := rfl
@[simp] theorem State.hbmSet_epoch (a : Nat) (b : Byte) : (s.hbmSet a b).epoch = s.epoch := rfl
@[simp] theorem State.hbmSet_armed (a : Nat) (b : Byte) : (s.hbmSet a b).armed = s.armed := rfl
@[simp] theorem State.hbmSet_latch (a : Nat) (b : Byte) : (s.hbmSet a b).latch = s.latch := rfl
@[simp] theorem State.hbmSet_held (a : Nat) (b : Byte) : (s.hbmSet a b).held = s.held := rfl
@[simp] theorem State.hbmSet_resLatch (a : Nat) (b : Byte) : (s.hbmSet a b).resLatch = s.resLatch := rfl
@[simp] theorem State.hbmSet_engs (a : Nat) (b : Byte) : (s.hbmSet a b).engs = s.engs := rfl
@[simp] theorem State.hbmSet_pes (a : Nat) (b : Byte) : (s.hbmSet a b).pes = s.pes := rfl
@[simp] theorem State.hbmSet_raus (a : Nat) (b : Byte) : (s.hbmSet a b).raus = s.raus := rfl
@[simp] theorem State.hbmSet_rauq (a : Nat) (b : Byte) : (s.hbmSet a b).rauq = s.rauq := rfl
@[simp] theorem State.hbmSet_lanes (a : Nat) (b : Byte) : (s.hbmSet a b).lanes = s.lanes := rfl
@[simp] theorem State.hbmSet_settle (a : Nat) (b : Byte) : (s.hbmSet a b).settle = s.settle := rfl
@[simp] theorem State.hbmSet_smus (a : Nat) (b : Byte) : (s.hbmSet a b).smus = s.smus := rfl
@[simp] theorem State.hbmSet_madcs (a : Nat) (b : Byte) : (s.hbmSet a b).madcs = s.madcs := rfl
@[simp] theorem State.hbmSet_tdcs (a : Nat) (b : Byte) : (s.hbmSet a b).tdcs = s.tdcs := rfl
@[simp] theorem State.hbmSet_txs (a : Nat) (b : Byte) : (s.hbmSet a b).txs = s.txs := rfl
@[simp] theorem State.hbmSet_rxs (a : Nat) (b : Byte) : (s.hbmSet a b).rxs = s.rxs := rfl
@[simp] theorem State.hbmSet_dec (a : Nat) (b : Byte) : (s.hbmSet a b).dec = s.dec := rfl
@[simp] theorem State.hbmSet_kls (a : Nat) (b : Byte) : (s.hbmSet a b).kls = s.kls := rfl
@[simp] theorem State.hbmSet_mcsCopy (a : Nat) (b : Byte) : (s.hbmSet a b).mcsCopy = s.mcsCopy := rfl
@[simp] theorem State.hbmSet_mcsBuf (a : Nat) (b : Byte) : (s.hbmSet a b).mcsBuf = s.mcsBuf := rfl
@[simp] theorem State.hbmSet_mcsJob (a : Nat) (b : Byte) : (s.hbmSet a b).mcsJob = s.mcsJob := rfl
@[simp] theorem State.hbmSet_chans (a : Nat) (b : Byte) : (s.hbmSet a b).chans = s.chans := rfl
@[simp] theorem State.hbmSet_filling (a : Nat) (b : Byte) : (s.hbmSet a b).filling = s.filling := rfl
@[simp] theorem State.hbmSet_ceFired (a : Nat) (b : Byte) : (s.hbmSet a b).ceFired = s.ceFired := rfl
@[simp] theorem State.hbmSet_seas (a : Nat) (b : Byte) : (s.hbmSet a b).seas = s.seas := rfl
@[simp] theorem State.hbmSet_glbLock (a : Nat) (b : Byte) : (s.hbmSet a b).glbLock = s.glbLock := rfl
@[simp] theorem State.hbmSet_blob (a : Nat) (b : Byte) : (s.hbmSet a b).blob = s.blob := rfl
@[simp] theorem State.hbmSet_units (a : Nat) (b : Byte) : (s.hbmSet a b).units = s.units := rfl
@[simp] theorem State.hbmSet_calW (a : Nat) (b : Byte) : (s.hbmSet a b).calW = s.calW := rfl
@[simp] theorem State.hbmSet_calF (a : Nat) (b : Byte) : (s.hbmSet a b).calF = s.calF := rfl
@[simp] theorem State.hbmSet_thist (a : Nat) (b : Byte) : (s.hbmSet a b).thist = s.thist := rfl
@[simp] theorem State.hbmSet_faults (a : Nat) (b : Byte) : (s.hbmSet a b).faults = s.faults := rfl
@[simp] theorem State.hbmSet_quietFrom (a : Nat) (b : Byte) : (s.hbmSet a b).quietFrom = s.quietFrom := rfl
@[simp] theorem State.hbmSet_chn (a : Nat) (b : Byte) : (s.hbmSet a b).chn = s.chn := rfl
@[simp] theorem State.hbmSet_card (a : Nat) (b : Byte) : (s.hbmSet a b).card = s.card := rfl
@[simp] theorem State.hbmSet_busMaster (a : Nat) (b : Byte) : (s.hbmSet a b).busMaster = s.busMaster := rfl
@[simp] theorem State.hbmSet_msixEn (a : Nat) (b : Byte) : (s.hbmSet a b).msixEn = s.msixEn := rfl
@[simp] theorem State.hbmSet_msixMask (a : Nat) (b : Byte) : (s.hbmSet a b).msixMask = s.msixMask := rfl
@[simp] theorem State.hbmSet_outbox (a : Nat) (b : Byte) : (s.hbmSet a b).outbox = s.outbox := rfl
@[simp] theorem State.hbmSet_fresh (a : Nat) (b : Byte) : (s.hbmSet a b).fresh = s.fresh := rfl
@[simp] theorem State.hbmSet_rd (a : Nat) (b : Byte) (j : Nat) : (s.hbmSet a b).rd j = s.rd j := rfl
@[simp] theorem State.hbmSet_eng (a : Nat) (b : Byte) (j : Nat) : (s.hbmSet a b).eng j = s.eng j := rfl
@[simp] theorem State.hbmSet_pe (a : Nat) (b : Byte) (j : Nat) : (s.hbmSet a b).pe j = s.pe j := rfl

/-! hbmZero changes `hbm` alone -/

@[simp] theorem State.hbmZero_pending (a n : Nat) : (s.hbmZero a n).pending = s.pending := rfl
@[simp] theorem State.hbmZero_bar (a n : Nat) : (s.hbmZero a n).bar = s.bar := rfl
@[simp] theorem State.hbmZero_fsPar (a n : Nat) : (s.hbmZero a n).fsPar = s.fsPar := rfl
@[simp] theorem State.hbmZero_tabs (a n : Nat) : (s.hbmZero a n).tabs = s.tabs := rfl
@[simp] theorem State.hbmZero_now (a n : Nat) : (s.hbmZero a n).now = s.now := rfl
@[simp] theorem State.hbmZero_wtc (a n : Nat) : (s.hbmZero a n).wtc = s.wtc := rfl
@[simp] theorem State.hbmZero_epoch (a n : Nat) : (s.hbmZero a n).epoch = s.epoch := rfl
@[simp] theorem State.hbmZero_armed (a n : Nat) : (s.hbmZero a n).armed = s.armed := rfl
@[simp] theorem State.hbmZero_latch (a n : Nat) : (s.hbmZero a n).latch = s.latch := rfl
@[simp] theorem State.hbmZero_held (a n : Nat) : (s.hbmZero a n).held = s.held := rfl
@[simp] theorem State.hbmZero_resLatch (a n : Nat) : (s.hbmZero a n).resLatch = s.resLatch := rfl
@[simp] theorem State.hbmZero_engs (a n : Nat) : (s.hbmZero a n).engs = s.engs := rfl
@[simp] theorem State.hbmZero_pes (a n : Nat) : (s.hbmZero a n).pes = s.pes := rfl
@[simp] theorem State.hbmZero_raus (a n : Nat) : (s.hbmZero a n).raus = s.raus := rfl
@[simp] theorem State.hbmZero_rauq (a n : Nat) : (s.hbmZero a n).rauq = s.rauq := rfl
@[simp] theorem State.hbmZero_lanes (a n : Nat) : (s.hbmZero a n).lanes = s.lanes := rfl
@[simp] theorem State.hbmZero_settle (a n : Nat) : (s.hbmZero a n).settle = s.settle := rfl
@[simp] theorem State.hbmZero_smus (a n : Nat) : (s.hbmZero a n).smus = s.smus := rfl
@[simp] theorem State.hbmZero_madcs (a n : Nat) : (s.hbmZero a n).madcs = s.madcs := rfl
@[simp] theorem State.hbmZero_tdcs (a n : Nat) : (s.hbmZero a n).tdcs = s.tdcs := rfl
@[simp] theorem State.hbmZero_txs (a n : Nat) : (s.hbmZero a n).txs = s.txs := rfl
@[simp] theorem State.hbmZero_rxs (a n : Nat) : (s.hbmZero a n).rxs = s.rxs := rfl
@[simp] theorem State.hbmZero_dec (a n : Nat) : (s.hbmZero a n).dec = s.dec := rfl
@[simp] theorem State.hbmZero_kls (a n : Nat) : (s.hbmZero a n).kls = s.kls := rfl
@[simp] theorem State.hbmZero_mcsCopy (a n : Nat) : (s.hbmZero a n).mcsCopy = s.mcsCopy := rfl
@[simp] theorem State.hbmZero_mcsBuf (a n : Nat) : (s.hbmZero a n).mcsBuf = s.mcsBuf := rfl
@[simp] theorem State.hbmZero_mcsJob (a n : Nat) : (s.hbmZero a n).mcsJob = s.mcsJob := rfl
@[simp] theorem State.hbmZero_chans (a n : Nat) : (s.hbmZero a n).chans = s.chans := rfl
@[simp] theorem State.hbmZero_filling (a n : Nat) : (s.hbmZero a n).filling = s.filling := rfl
@[simp] theorem State.hbmZero_ceFired (a n : Nat) : (s.hbmZero a n).ceFired = s.ceFired := rfl
@[simp] theorem State.hbmZero_seas (a n : Nat) : (s.hbmZero a n).seas = s.seas := rfl
@[simp] theorem State.hbmZero_glbLock (a n : Nat) : (s.hbmZero a n).glbLock = s.glbLock := rfl
@[simp] theorem State.hbmZero_blob (a n : Nat) : (s.hbmZero a n).blob = s.blob := rfl
@[simp] theorem State.hbmZero_units (a n : Nat) : (s.hbmZero a n).units = s.units := rfl
@[simp] theorem State.hbmZero_calW (a n : Nat) : (s.hbmZero a n).calW = s.calW := rfl
@[simp] theorem State.hbmZero_calF (a n : Nat) : (s.hbmZero a n).calF = s.calF := rfl
@[simp] theorem State.hbmZero_thist (a n : Nat) : (s.hbmZero a n).thist = s.thist := rfl
@[simp] theorem State.hbmZero_faults (a n : Nat) : (s.hbmZero a n).faults = s.faults := rfl
@[simp] theorem State.hbmZero_quietFrom (a n : Nat) : (s.hbmZero a n).quietFrom = s.quietFrom := rfl
@[simp] theorem State.hbmZero_chn (a n : Nat) : (s.hbmZero a n).chn = s.chn := rfl
@[simp] theorem State.hbmZero_card (a n : Nat) : (s.hbmZero a n).card = s.card := rfl
@[simp] theorem State.hbmZero_busMaster (a n : Nat) : (s.hbmZero a n).busMaster = s.busMaster := rfl
@[simp] theorem State.hbmZero_msixEn (a n : Nat) : (s.hbmZero a n).msixEn = s.msixEn := rfl
@[simp] theorem State.hbmZero_msixMask (a n : Nat) : (s.hbmZero a n).msixMask = s.msixMask := rfl
@[simp] theorem State.hbmZero_outbox (a n : Nat) : (s.hbmZero a n).outbox = s.outbox := rfl
@[simp] theorem State.hbmZero_fresh (a n : Nat) : (s.hbmZero a n).fresh = s.fresh := rfl
@[simp] theorem State.hbmZero_rd (a n : Nat) (j : Nat) : (s.hbmZero a n).rd j = s.rd j := rfl
@[simp] theorem State.hbmZero_eng (a n : Nat) (j : Nat) : (s.hbmZero a n).eng j = s.eng j := rfl
@[simp] theorem State.hbmZero_pe (a n : Nat) (j : Nat) : (s.hbmZero a n).pe j = s.pe j := rfl

/-! emit changes `outbox` alone -/

@[simp] theorem State.emit_pending (o : Out) : (s.emit o).pending = s.pending := rfl
@[simp] theorem State.emit_bar (o : Out) : (s.emit o).bar = s.bar := rfl
@[simp] theorem State.emit_fsPar (o : Out) : (s.emit o).fsPar = s.fsPar := rfl
@[simp] theorem State.emit_hbm (o : Out) : (s.emit o).hbm = s.hbm := rfl
@[simp] theorem State.emit_tabs (o : Out) : (s.emit o).tabs = s.tabs := rfl
@[simp] theorem State.emit_now (o : Out) : (s.emit o).now = s.now := rfl
@[simp] theorem State.emit_wtc (o : Out) : (s.emit o).wtc = s.wtc := rfl
@[simp] theorem State.emit_epoch (o : Out) : (s.emit o).epoch = s.epoch := rfl
@[simp] theorem State.emit_armed (o : Out) : (s.emit o).armed = s.armed := rfl
@[simp] theorem State.emit_latch (o : Out) : (s.emit o).latch = s.latch := rfl
@[simp] theorem State.emit_held (o : Out) : (s.emit o).held = s.held := rfl
@[simp] theorem State.emit_resLatch (o : Out) : (s.emit o).resLatch = s.resLatch := rfl
@[simp] theorem State.emit_engs (o : Out) : (s.emit o).engs = s.engs := rfl
@[simp] theorem State.emit_pes (o : Out) : (s.emit o).pes = s.pes := rfl
@[simp] theorem State.emit_raus (o : Out) : (s.emit o).raus = s.raus := rfl
@[simp] theorem State.emit_rauq (o : Out) : (s.emit o).rauq = s.rauq := rfl
@[simp] theorem State.emit_lanes (o : Out) : (s.emit o).lanes = s.lanes := rfl
@[simp] theorem State.emit_settle (o : Out) : (s.emit o).settle = s.settle := rfl
@[simp] theorem State.emit_smus (o : Out) : (s.emit o).smus = s.smus := rfl
@[simp] theorem State.emit_madcs (o : Out) : (s.emit o).madcs = s.madcs := rfl
@[simp] theorem State.emit_tdcs (o : Out) : (s.emit o).tdcs = s.tdcs := rfl
@[simp] theorem State.emit_txs (o : Out) : (s.emit o).txs = s.txs := rfl
@[simp] theorem State.emit_rxs (o : Out) : (s.emit o).rxs = s.rxs := rfl
@[simp] theorem State.emit_dec (o : Out) : (s.emit o).dec = s.dec := rfl
@[simp] theorem State.emit_kls (o : Out) : (s.emit o).kls = s.kls := rfl
@[simp] theorem State.emit_mcsCopy (o : Out) : (s.emit o).mcsCopy = s.mcsCopy := rfl
@[simp] theorem State.emit_mcsBuf (o : Out) : (s.emit o).mcsBuf = s.mcsBuf := rfl
@[simp] theorem State.emit_mcsJob (o : Out) : (s.emit o).mcsJob = s.mcsJob := rfl
@[simp] theorem State.emit_chans (o : Out) : (s.emit o).chans = s.chans := rfl
@[simp] theorem State.emit_filling (o : Out) : (s.emit o).filling = s.filling := rfl
@[simp] theorem State.emit_ceFired (o : Out) : (s.emit o).ceFired = s.ceFired := rfl
@[simp] theorem State.emit_seas (o : Out) : (s.emit o).seas = s.seas := rfl
@[simp] theorem State.emit_glbLock (o : Out) : (s.emit o).glbLock = s.glbLock := rfl
@[simp] theorem State.emit_blob (o : Out) : (s.emit o).blob = s.blob := rfl
@[simp] theorem State.emit_units (o : Out) : (s.emit o).units = s.units := rfl
@[simp] theorem State.emit_calW (o : Out) : (s.emit o).calW = s.calW := rfl
@[simp] theorem State.emit_calF (o : Out) : (s.emit o).calF = s.calF := rfl
@[simp] theorem State.emit_thist (o : Out) : (s.emit o).thist = s.thist := rfl
@[simp] theorem State.emit_faults (o : Out) : (s.emit o).faults = s.faults := rfl
@[simp] theorem State.emit_quietFrom (o : Out) : (s.emit o).quietFrom = s.quietFrom := rfl
@[simp] theorem State.emit_chn (o : Out) : (s.emit o).chn = s.chn := rfl
@[simp] theorem State.emit_card (o : Out) : (s.emit o).card = s.card := rfl
@[simp] theorem State.emit_busMaster (o : Out) : (s.emit o).busMaster = s.busMaster := rfl
@[simp] theorem State.emit_msixEn (o : Out) : (s.emit o).msixEn = s.msixEn := rfl
@[simp] theorem State.emit_msixMask (o : Out) : (s.emit o).msixMask = s.msixMask := rfl
@[simp] theorem State.emit_fresh (o : Out) : (s.emit o).fresh = s.fresh := rfl
@[simp] theorem State.emit_rd (o : Out) (j : Nat) : (s.emit o).rd j = s.rd j := rfl
@[simp] theorem State.emit_eng (o : Out) (j : Nat) : (s.emit o).eng j = s.eng j := rfl
@[simp] theorem State.emit_pe (o : Out) (j : Nat) : (s.emit o).pe j = s.pe j := rfl
@[simp] theorem State.emit_hbmB (o : Out) (j : Nat) : (s.emit o).hbmB j = s.hbmB j := rfl

/-! raise changes `faults` alone -/

@[simp] theorem State.raise_pending (c l k i f : Nat) : (s.raise c l k i f).pending = s.pending := rfl
@[simp] theorem State.raise_bar (c l k i f : Nat) : (s.raise c l k i f).bar = s.bar := rfl
@[simp] theorem State.raise_fsPar (c l k i f : Nat) : (s.raise c l k i f).fsPar = s.fsPar := rfl
@[simp] theorem State.raise_hbm (c l k i f : Nat) : (s.raise c l k i f).hbm = s.hbm := rfl
@[simp] theorem State.raise_tabs (c l k i f : Nat) : (s.raise c l k i f).tabs = s.tabs := rfl
@[simp] theorem State.raise_now (c l k i f : Nat) : (s.raise c l k i f).now = s.now := rfl
@[simp] theorem State.raise_wtc (c l k i f : Nat) : (s.raise c l k i f).wtc = s.wtc := rfl
@[simp] theorem State.raise_epoch (c l k i f : Nat) : (s.raise c l k i f).epoch = s.epoch := rfl
@[simp] theorem State.raise_armed (c l k i f : Nat) : (s.raise c l k i f).armed = s.armed := rfl
@[simp] theorem State.raise_latch (c l k i f : Nat) : (s.raise c l k i f).latch = s.latch := rfl
@[simp] theorem State.raise_held (c l k i f : Nat) : (s.raise c l k i f).held = s.held := rfl
@[simp] theorem State.raise_resLatch (c l k i f : Nat) : (s.raise c l k i f).resLatch = s.resLatch := rfl
@[simp] theorem State.raise_engs (c l k i f : Nat) : (s.raise c l k i f).engs = s.engs := rfl
@[simp] theorem State.raise_pes (c l k i f : Nat) : (s.raise c l k i f).pes = s.pes := rfl
@[simp] theorem State.raise_raus (c l k i f : Nat) : (s.raise c l k i f).raus = s.raus := rfl
@[simp] theorem State.raise_rauq (c l k i f : Nat) : (s.raise c l k i f).rauq = s.rauq := rfl
@[simp] theorem State.raise_lanes (c l k i f : Nat) : (s.raise c l k i f).lanes = s.lanes := rfl
@[simp] theorem State.raise_settle (c l k i f : Nat) : (s.raise c l k i f).settle = s.settle := rfl
@[simp] theorem State.raise_smus (c l k i f : Nat) : (s.raise c l k i f).smus = s.smus := rfl
@[simp] theorem State.raise_madcs (c l k i f : Nat) : (s.raise c l k i f).madcs = s.madcs := rfl
@[simp] theorem State.raise_tdcs (c l k i f : Nat) : (s.raise c l k i f).tdcs = s.tdcs := rfl
@[simp] theorem State.raise_txs (c l k i f : Nat) : (s.raise c l k i f).txs = s.txs := rfl
@[simp] theorem State.raise_rxs (c l k i f : Nat) : (s.raise c l k i f).rxs = s.rxs := rfl
@[simp] theorem State.raise_dec (c l k i f : Nat) : (s.raise c l k i f).dec = s.dec := rfl
@[simp] theorem State.raise_kls (c l k i f : Nat) : (s.raise c l k i f).kls = s.kls := rfl
@[simp] theorem State.raise_mcsCopy (c l k i f : Nat) : (s.raise c l k i f).mcsCopy = s.mcsCopy := rfl
@[simp] theorem State.raise_mcsBuf (c l k i f : Nat) : (s.raise c l k i f).mcsBuf = s.mcsBuf := rfl
@[simp] theorem State.raise_mcsJob (c l k i f : Nat) : (s.raise c l k i f).mcsJob = s.mcsJob := rfl
@[simp] theorem State.raise_chans (c l k i f : Nat) : (s.raise c l k i f).chans = s.chans := rfl
@[simp] theorem State.raise_filling (c l k i f : Nat) : (s.raise c l k i f).filling = s.filling := rfl
@[simp] theorem State.raise_ceFired (c l k i f : Nat) : (s.raise c l k i f).ceFired = s.ceFired := rfl
@[simp] theorem State.raise_seas (c l k i f : Nat) : (s.raise c l k i f).seas = s.seas := rfl
@[simp] theorem State.raise_glbLock (c l k i f : Nat) : (s.raise c l k i f).glbLock = s.glbLock := rfl
@[simp] theorem State.raise_blob (c l k i f : Nat) : (s.raise c l k i f).blob = s.blob := rfl
@[simp] theorem State.raise_units (c l k i f : Nat) : (s.raise c l k i f).units = s.units := rfl
@[simp] theorem State.raise_calW (c l k i f : Nat) : (s.raise c l k i f).calW = s.calW := rfl
@[simp] theorem State.raise_calF (c l k i f : Nat) : (s.raise c l k i f).calF = s.calF := rfl
@[simp] theorem State.raise_thist (c l k i f : Nat) : (s.raise c l k i f).thist = s.thist := rfl
@[simp] theorem State.raise_quietFrom (c l k i f : Nat) : (s.raise c l k i f).quietFrom = s.quietFrom := rfl
@[simp] theorem State.raise_chn (c l k i f : Nat) : (s.raise c l k i f).chn = s.chn := rfl
@[simp] theorem State.raise_card (c l k i f : Nat) : (s.raise c l k i f).card = s.card := rfl
@[simp] theorem State.raise_busMaster (c l k i f : Nat) : (s.raise c l k i f).busMaster = s.busMaster := rfl
@[simp] theorem State.raise_msixEn (c l k i f : Nat) : (s.raise c l k i f).msixEn = s.msixEn := rfl
@[simp] theorem State.raise_msixMask (c l k i f : Nat) : (s.raise c l k i f).msixMask = s.msixMask := rfl
@[simp] theorem State.raise_outbox (c l k i f : Nat) : (s.raise c l k i f).outbox = s.outbox := rfl
@[simp] theorem State.raise_fresh (c l k i f : Nat) : (s.raise c l k i f).fresh = s.fresh := rfl
@[simp] theorem State.raise_rd (c l k i f : Nat) (j : Nat) : (s.raise c l k i f).rd j = s.rd j := rfl
@[simp] theorem State.raise_eng (c l k i f : Nat) (j : Nat) : (s.raise c l k i f).eng j = s.eng j := rfl
@[simp] theorem State.raise_pe (c l k i f : Nat) (j : Nat) : (s.raise c l k i f).pe j = s.pe j := rfl
@[simp] theorem State.raise_hbmB (c l k i f : Nat) (j : Nat) : (s.raise c l k i f).hbmB j = s.hbmB j := rfl

/-! setLatch changes `latch` alone -/

@[simp] theorem State.setLatch_pending (p : Path) (v : Word) : (s.setLatch p v).pending = s.pending := rfl
@[simp] theorem State.setLatch_bar (p : Path) (v : Word) : (s.setLatch p v).bar = s.bar := rfl
@[simp] theorem State.setLatch_fsPar (p : Path) (v : Word) : (s.setLatch p v).fsPar = s.fsPar := rfl
@[simp] theorem State.setLatch_hbm (p : Path) (v : Word) : (s.setLatch p v).hbm = s.hbm := rfl
@[simp] theorem State.setLatch_tabs (p : Path) (v : Word) : (s.setLatch p v).tabs = s.tabs := rfl
@[simp] theorem State.setLatch_now (p : Path) (v : Word) : (s.setLatch p v).now = s.now := rfl
@[simp] theorem State.setLatch_wtc (p : Path) (v : Word) : (s.setLatch p v).wtc = s.wtc := rfl
@[simp] theorem State.setLatch_epoch (p : Path) (v : Word) : (s.setLatch p v).epoch = s.epoch := rfl
@[simp] theorem State.setLatch_armed (p : Path) (v : Word) : (s.setLatch p v).armed = s.armed := rfl
@[simp] theorem State.setLatch_held (p : Path) (v : Word) : (s.setLatch p v).held = s.held := rfl
@[simp] theorem State.setLatch_resLatch (p : Path) (v : Word) : (s.setLatch p v).resLatch = s.resLatch := rfl
@[simp] theorem State.setLatch_engs (p : Path) (v : Word) : (s.setLatch p v).engs = s.engs := rfl
@[simp] theorem State.setLatch_pes (p : Path) (v : Word) : (s.setLatch p v).pes = s.pes := rfl
@[simp] theorem State.setLatch_raus (p : Path) (v : Word) : (s.setLatch p v).raus = s.raus := rfl
@[simp] theorem State.setLatch_rauq (p : Path) (v : Word) : (s.setLatch p v).rauq = s.rauq := rfl
@[simp] theorem State.setLatch_lanes (p : Path) (v : Word) : (s.setLatch p v).lanes = s.lanes := rfl
@[simp] theorem State.setLatch_settle (p : Path) (v : Word) : (s.setLatch p v).settle = s.settle := rfl
@[simp] theorem State.setLatch_smus (p : Path) (v : Word) : (s.setLatch p v).smus = s.smus := rfl
@[simp] theorem State.setLatch_madcs (p : Path) (v : Word) : (s.setLatch p v).madcs = s.madcs := rfl
@[simp] theorem State.setLatch_tdcs (p : Path) (v : Word) : (s.setLatch p v).tdcs = s.tdcs := rfl
@[simp] theorem State.setLatch_txs (p : Path) (v : Word) : (s.setLatch p v).txs = s.txs := rfl
@[simp] theorem State.setLatch_rxs (p : Path) (v : Word) : (s.setLatch p v).rxs = s.rxs := rfl
@[simp] theorem State.setLatch_dec (p : Path) (v : Word) : (s.setLatch p v).dec = s.dec := rfl
@[simp] theorem State.setLatch_kls (p : Path) (v : Word) : (s.setLatch p v).kls = s.kls := rfl
@[simp] theorem State.setLatch_mcsCopy (p : Path) (v : Word) : (s.setLatch p v).mcsCopy = s.mcsCopy := rfl
@[simp] theorem State.setLatch_mcsBuf (p : Path) (v : Word) : (s.setLatch p v).mcsBuf = s.mcsBuf := rfl
@[simp] theorem State.setLatch_mcsJob (p : Path) (v : Word) : (s.setLatch p v).mcsJob = s.mcsJob := rfl
@[simp] theorem State.setLatch_chans (p : Path) (v : Word) : (s.setLatch p v).chans = s.chans := rfl
@[simp] theorem State.setLatch_filling (p : Path) (v : Word) : (s.setLatch p v).filling = s.filling := rfl
@[simp] theorem State.setLatch_ceFired (p : Path) (v : Word) : (s.setLatch p v).ceFired = s.ceFired := rfl
@[simp] theorem State.setLatch_seas (p : Path) (v : Word) : (s.setLatch p v).seas = s.seas := rfl
@[simp] theorem State.setLatch_glbLock (p : Path) (v : Word) : (s.setLatch p v).glbLock = s.glbLock := rfl
@[simp] theorem State.setLatch_blob (p : Path) (v : Word) : (s.setLatch p v).blob = s.blob := rfl
@[simp] theorem State.setLatch_units (p : Path) (v : Word) : (s.setLatch p v).units = s.units := rfl
@[simp] theorem State.setLatch_calW (p : Path) (v : Word) : (s.setLatch p v).calW = s.calW := rfl
@[simp] theorem State.setLatch_calF (p : Path) (v : Word) : (s.setLatch p v).calF = s.calF := rfl
@[simp] theorem State.setLatch_thist (p : Path) (v : Word) : (s.setLatch p v).thist = s.thist := rfl
@[simp] theorem State.setLatch_faults (p : Path) (v : Word) : (s.setLatch p v).faults = s.faults := rfl
@[simp] theorem State.setLatch_quietFrom (p : Path) (v : Word) : (s.setLatch p v).quietFrom = s.quietFrom := rfl
@[simp] theorem State.setLatch_chn (p : Path) (v : Word) : (s.setLatch p v).chn = s.chn := rfl
@[simp] theorem State.setLatch_card (p : Path) (v : Word) : (s.setLatch p v).card = s.card := rfl
@[simp] theorem State.setLatch_busMaster (p : Path) (v : Word) : (s.setLatch p v).busMaster = s.busMaster := rfl
@[simp] theorem State.setLatch_msixEn (p : Path) (v : Word) : (s.setLatch p v).msixEn = s.msixEn := rfl
@[simp] theorem State.setLatch_msixMask (p : Path) (v : Word) : (s.setLatch p v).msixMask = s.msixMask := rfl
@[simp] theorem State.setLatch_outbox (p : Path) (v : Word) : (s.setLatch p v).outbox = s.outbox := rfl
@[simp] theorem State.setLatch_fresh (p : Path) (v : Word) : (s.setLatch p v).fresh = s.fresh := rfl
@[simp] theorem State.setLatch_rd (p : Path) (v : Word) (j : Nat) : (s.setLatch p v).rd j = s.rd j := rfl
@[simp] theorem State.setLatch_eng (p : Path) (v : Word) (j : Nat) : (s.setLatch p v).eng j = s.eng j := rfl
@[simp] theorem State.setLatch_pe (p : Path) (v : Word) (j : Nat) : (s.setLatch p v).pe j = s.pe j := rfl
@[simp] theorem State.setLatch_hbmB (p : Path) (v : Word) (j : Nat) : (s.setLatch p v).hbmB j = s.hbmB j := rfl

/-! holdLo changes `held` alone -/

@[simp] theorem State.holdLo_pending (p : Path) (a : Nat) (v : Option Word) : (s.holdLo p a v).pending = s.pending := rfl
@[simp] theorem State.holdLo_bar (p : Path) (a : Nat) (v : Option Word) : (s.holdLo p a v).bar = s.bar := rfl
@[simp] theorem State.holdLo_fsPar (p : Path) (a : Nat) (v : Option Word) : (s.holdLo p a v).fsPar = s.fsPar := rfl
@[simp] theorem State.holdLo_hbm (p : Path) (a : Nat) (v : Option Word) : (s.holdLo p a v).hbm = s.hbm := rfl
@[simp] theorem State.holdLo_tabs (p : Path) (a : Nat) (v : Option Word) : (s.holdLo p a v).tabs = s.tabs := rfl
@[simp] theorem State.holdLo_now (p : Path) (a : Nat) (v : Option Word) : (s.holdLo p a v).now = s.now := rfl
@[simp] theorem State.holdLo_wtc (p : Path) (a : Nat) (v : Option Word) : (s.holdLo p a v).wtc = s.wtc := rfl
@[simp] theorem State.holdLo_epoch (p : Path) (a : Nat) (v : Option Word) : (s.holdLo p a v).epoch = s.epoch := rfl
@[simp] theorem State.holdLo_armed (p : Path) (a : Nat) (v : Option Word) : (s.holdLo p a v).armed = s.armed := rfl
@[simp] theorem State.holdLo_latch (p : Path) (a : Nat) (v : Option Word) : (s.holdLo p a v).latch = s.latch := rfl
@[simp] theorem State.holdLo_resLatch (p : Path) (a : Nat) (v : Option Word) : (s.holdLo p a v).resLatch = s.resLatch := rfl
@[simp] theorem State.holdLo_engs (p : Path) (a : Nat) (v : Option Word) : (s.holdLo p a v).engs = s.engs := rfl
@[simp] theorem State.holdLo_pes (p : Path) (a : Nat) (v : Option Word) : (s.holdLo p a v).pes = s.pes := rfl
@[simp] theorem State.holdLo_raus (p : Path) (a : Nat) (v : Option Word) : (s.holdLo p a v).raus = s.raus := rfl
@[simp] theorem State.holdLo_rauq (p : Path) (a : Nat) (v : Option Word) : (s.holdLo p a v).rauq = s.rauq := rfl
@[simp] theorem State.holdLo_lanes (p : Path) (a : Nat) (v : Option Word) : (s.holdLo p a v).lanes = s.lanes := rfl
@[simp] theorem State.holdLo_settle (p : Path) (a : Nat) (v : Option Word) : (s.holdLo p a v).settle = s.settle := rfl
@[simp] theorem State.holdLo_smus (p : Path) (a : Nat) (v : Option Word) : (s.holdLo p a v).smus = s.smus := rfl
@[simp] theorem State.holdLo_madcs (p : Path) (a : Nat) (v : Option Word) : (s.holdLo p a v).madcs = s.madcs := rfl
@[simp] theorem State.holdLo_tdcs (p : Path) (a : Nat) (v : Option Word) : (s.holdLo p a v).tdcs = s.tdcs := rfl
@[simp] theorem State.holdLo_txs (p : Path) (a : Nat) (v : Option Word) : (s.holdLo p a v).txs = s.txs := rfl
@[simp] theorem State.holdLo_rxs (p : Path) (a : Nat) (v : Option Word) : (s.holdLo p a v).rxs = s.rxs := rfl
@[simp] theorem State.holdLo_dec (p : Path) (a : Nat) (v : Option Word) : (s.holdLo p a v).dec = s.dec := rfl
@[simp] theorem State.holdLo_kls (p : Path) (a : Nat) (v : Option Word) : (s.holdLo p a v).kls = s.kls := rfl
@[simp] theorem State.holdLo_mcsCopy (p : Path) (a : Nat) (v : Option Word) : (s.holdLo p a v).mcsCopy = s.mcsCopy := rfl
@[simp] theorem State.holdLo_mcsBuf (p : Path) (a : Nat) (v : Option Word) : (s.holdLo p a v).mcsBuf = s.mcsBuf := rfl
@[simp] theorem State.holdLo_mcsJob (p : Path) (a : Nat) (v : Option Word) : (s.holdLo p a v).mcsJob = s.mcsJob := rfl
@[simp] theorem State.holdLo_chans (p : Path) (a : Nat) (v : Option Word) : (s.holdLo p a v).chans = s.chans := rfl
@[simp] theorem State.holdLo_filling (p : Path) (a : Nat) (v : Option Word) : (s.holdLo p a v).filling = s.filling := rfl
@[simp] theorem State.holdLo_ceFired (p : Path) (a : Nat) (v : Option Word) : (s.holdLo p a v).ceFired = s.ceFired := rfl
@[simp] theorem State.holdLo_seas (p : Path) (a : Nat) (v : Option Word) : (s.holdLo p a v).seas = s.seas := rfl
@[simp] theorem State.holdLo_glbLock (p : Path) (a : Nat) (v : Option Word) : (s.holdLo p a v).glbLock = s.glbLock := rfl
@[simp] theorem State.holdLo_blob (p : Path) (a : Nat) (v : Option Word) : (s.holdLo p a v).blob = s.blob := rfl
@[simp] theorem State.holdLo_units (p : Path) (a : Nat) (v : Option Word) : (s.holdLo p a v).units = s.units := rfl
@[simp] theorem State.holdLo_calW (p : Path) (a : Nat) (v : Option Word) : (s.holdLo p a v).calW = s.calW := rfl
@[simp] theorem State.holdLo_calF (p : Path) (a : Nat) (v : Option Word) : (s.holdLo p a v).calF = s.calF := rfl
@[simp] theorem State.holdLo_thist (p : Path) (a : Nat) (v : Option Word) : (s.holdLo p a v).thist = s.thist := rfl
@[simp] theorem State.holdLo_faults (p : Path) (a : Nat) (v : Option Word) : (s.holdLo p a v).faults = s.faults := rfl
@[simp] theorem State.holdLo_quietFrom (p : Path) (a : Nat) (v : Option Word) : (s.holdLo p a v).quietFrom = s.quietFrom := rfl
@[simp] theorem State.holdLo_chn (p : Path) (a : Nat) (v : Option Word) : (s.holdLo p a v).chn = s.chn := rfl
@[simp] theorem State.holdLo_card (p : Path) (a : Nat) (v : Option Word) : (s.holdLo p a v).card = s.card := rfl
@[simp] theorem State.holdLo_busMaster (p : Path) (a : Nat) (v : Option Word) : (s.holdLo p a v).busMaster = s.busMaster := rfl
@[simp] theorem State.holdLo_msixEn (p : Path) (a : Nat) (v : Option Word) : (s.holdLo p a v).msixEn = s.msixEn := rfl
@[simp] theorem State.holdLo_msixMask (p : Path) (a : Nat) (v : Option Word) : (s.holdLo p a v).msixMask = s.msixMask := rfl
@[simp] theorem State.holdLo_outbox (p : Path) (a : Nat) (v : Option Word) : (s.holdLo p a v).outbox = s.outbox := rfl
@[simp] theorem State.holdLo_fresh (p : Path) (a : Nat) (v : Option Word) : (s.holdLo p a v).fresh = s.fresh := rfl
@[simp] theorem State.holdLo_rd (p : Path) (a : Nat) (v : Option Word) (j : Nat) : (s.holdLo p a v).rd j = s.rd j := rfl
@[simp] theorem State.holdLo_eng (p : Path) (a : Nat) (v : Option Word) (j : Nat) : (s.holdLo p a v).eng j = s.eng j := rfl
@[simp] theorem State.holdLo_pe (p : Path) (a : Nat) (v : Option Word) (j : Nat) : (s.holdLo p a v).pe j = s.pe j := rfl
@[simp] theorem State.holdLo_hbmB (p : Path) (a : Nat) (v : Option Word) (j : Nat) : (s.holdLo p a v).hbmB j = s.hbmB j := rfl

end Sys2Proof.Machine
end

