-- ==== Sys2Proof/Laws/Kept.lean ====
section
/-! SUPPORT. That an operation keeps the canonical forms of HBM and of the register table: `Kept s t` says it of the way
from s to t, and each operation has one lemma that carries it on, so that an operation made of others is proved by
citing theirs. -/

namespace Sys2Proof.Machine

/-- From s to t the canonical forms are kept. -/
def Kept (s t : State) : Prop :=
  (Memory.wf s.hbm = true → Memory.wf t.hbm = true) ∧ (Registers.wf s.bar = true → Registers.wf t.bar = true)

theorem Kept.refl (s : State) : Kept s s := ⟨id, id⟩

theorem Kept.trans {s t u : State} (h : Kept s t) (k : Kept t u) : Kept s u :=
  ⟨fun x => k.1 (h.1 x), fun x => k.2 (h.2 x)⟩

/-- A change of other fields. -/
theorem Kept.same {s t u : State} (h : Kept s t) (hm : u.hbm = t.hbm) (hb : u.bar = t.bar) : Kept s u := by
  unfold Kept at h ⊢
  rw [hm, hb]
  exact h

section
variable {s t : State}

/-! What combines operations -/

theorem State.ite_kept {c : Prop} [Decidable c] {a b : State} (h : c → Kept s a) (k : ¬ c → Kept s b) :
    Kept s (if c then a else b) := by
  by_cases hc : c
  · rw [if_pos hc]; exact h hc
  · rw [if_neg hc]; exact k hc

theorem State.iff_kept {b : Bool} {f : State → State} (h : Kept s t) (k : ∀ u, Kept s u → Kept s (f u)) :
    Kept s (t.iff b f) := by
  unfold State.iff
  exact State.ite_kept (fun _ => k t h) (fun _ => h)

theorem State.each_kept {α : Type} {l : List α} {f : State → α → State} (h : Kept s t)
    (k : ∀ u a, Kept s u → Kept s (f u a)) : Kept s (t.each l f) := by
  unfold State.each
  induction l generalizing t with
  | nil => exact h
  | cons a l ih => exact ih (k t a h)

/-! Registers and HBM -/

theorem State.wr_kept (h : Kept s t) (a : Nat) (v : Word) : Kept s (t.wr a v) :=
  ⟨h.1, fun x => tableWf_tset barReset t.bar a v (h.2 x)⟩

theorem State.wrf_kept (h : Kept s t) (a lo len x : Nat) : Kept s (t.wrf a lo len x) := State.wr_kept h ..
theorem State.put_kept (h : Kept s t) (a i : Nat) (b : Bool) : Kept s (t.put a i b) := State.wr_kept h ..
theorem State.orr_kept (h : Kept s t) (a : Nat) (m : Word) : Kept s (t.orr a m) := State.wr_kept h ..
theorem State.wr64_kept (h : Kept s t) (a : Nat) (v : Word64) : Kept s (t.wr64 a v) := State.wr_kept (State.wr_kept h ..) ..

theorem State.hbmSet_kept (h : Kept s t) (a : Nat) (b : Byte) : Kept s (t.hbmSet a b) :=
  ⟨fun x => tableWf_tset _ t.hbm a b (h.1 x), h.2⟩

theorem State.hbmZero_kept (h : Kept s t) (a n : Nat) : Kept s (t.hbmZero a n) :=
  ⟨fun x => tableWf_filter _ t.hbm _ (h.1 x), h.2⟩

theorem State.hbmPut_kept (h : Kept s t) (a : Nat) (l : List Byte) : Kept s (t.hbmPut a l) := by
  induction l generalizing a t with
  | nil => exact h
  | cons b l ih => exact ih (State.hbmSet_kept h a b) (a + 1)

theorem State.hbmPutW_kept (h : Kept s t) (a : Nat) (v : Word64) : Kept s (t.hbmPutW a v) := State.hbmPut_kept h ..

end

end Sys2Proof.Machine
end

