-- ==== Sys2Proof/Laws/KeptOps.lean ====
section
/-! SUPPORT. That the shared operations (registers by path, faults, the engines' running, the clock, issuing an
instruction) keep the canonical forms, one lemma per operation. `KeptO` and `KeptP` say it of an operation that may answer
nothing. -/

namespace Sys2Proof.Machine

section
variable {s t : State}

theorem Kept.snd {α : Type} {x : α × State} {v : α} {u : State} (e : x = (v, u)) (k : Kept s x.2) : Kept s u := by rw [e] at k; exact k

/-- What a partial operation answers, if anything, keeps the forms. -/
def KeptO (s : State) (o : Option State) : Prop := ∀ u, o = some u → Kept s u

/-- The same where a value comes with the state. -/
def KeptP {α : Type} (s : State) (o : Option (α × State)) : Prop := ∀ v u, o = some (v, u) → Kept s u

theorem KeptO.use {o : Option State} {u : State} (e : o = some u) (k : KeptO s o) : Kept s u := k u e

theorem KeptP.use {α : Type} {o : Option (α × State)} {v : α} {u : State} (e : o = some (v, u)) (k : KeptP s o) : Kept s u := k v u e

theorem KeptO.none : KeptO s none := fun _ e => nomatch e

theorem KeptP.none {α : Type} : KeptP s (none : Option (α × State)) := fun _ _ e => nomatch e

theorem KeptO.some (h : Kept s t) : KeptO s (some t) := fun _ e => Option.some.inj e ▸ h

theorem KeptP.some {α : Type} {x : α × State} (h : Kept s x.2) : KeptP s (some x) := fun v u e => by cases e; exact h

theorem KeptO.ite {c : Prop} [Decidable c] {a b : Option State} (h : c → KeptO s a) (k : ¬ c → KeptO s b) :
    KeptO s (if c then a else b) := by
  by_cases hc : c
  · rw [if_pos hc]; exact h hc
  · rw [if_neg hc]; exact k hc

theorem KeptP.ite {α : Type} {c : Prop} [Decidable c] {a b : Option (α × State)} (h : c → KeptP s a) (k : ¬ c → KeptP s b) :
    KeptP s (if c then a else b) := by
  by_cases hc : c
  · rw [if_pos hc]; exact h hc
  · rw [if_neg hc]; exact k hc

theorem KeptP.map {α β : Type} {f : β → α × State} {o : Option β} (h : ∀ b, Kept s (f b).2) : KeptP s (o.map f) := by
  cases o with
  | none => exact KeptP.none
  | some b => exact KeptP.some (h b)

theorem KeptO.map {β : Type} {f : β → State} {o : Option β} (h : ∀ b, Kept s (f b)) : KeptO s (o.map f) := by
  cases o with
  | none => exact KeptO.none
  | some b => exact KeptO.some (h b)

theorem KeptO.getD {o : Option State} (k : KeptO s o) (h : Kept s t) : Kept s (o.getD t) := by
  cases o with
  | none => exact h
  | some b => exact k b rfl

theorem foldl_kept {α β : Type} {f : α × State → β → α × State} {l : List β} {r : α × State} (h : Kept s r.2)
    (k : ∀ r b, Kept s r.2 → Kept s (f r b).2) : Kept s (l.foldl f r).2 := by
  induction l generalizing r with
  | nil => exact h
  | cons b l ih => exact ih (k r b h)

theorem foldl_kept1 {α β : Type} {f : State × α → β → State × α} {l : List β} {r : State × α} (h : Kept s r.1)
    (k : ∀ r b, Kept s r.1 → Kept s (f r b).1) : Kept s (l.foldl f r).1 := by
  induction l generalizing r with
  | nil => exact h
  | cons b l ih => exact ih (k r b h)

/-- Registers whose table is filtered, with other fields. -/
theorem Kept.filt {u : State} (h : Kept s t) (p : Nat × Word → Bool) (q : Host.Cell → Bool) (hm : u.hbm = t.hbm.filter q)
    (hb : u.bar = t.bar.filter p) : Kept s u := by
  refine ⟨fun x => ?_, fun x => ?_⟩
  · rw [hm]; exact tableWf_filter _ _ q (h.1 x)
  · rw [hb]; exact tableWf_filter _ _ p (h.2 x)

theorem Kept.mk (h : Kept s t) {x_pending : List Instr} {x_fsPar : Table Bool} {x_tabs : Table Word64} {x_now : Nat} {x_wtc : BitVec 48} {x_epoch : BitVec 16} {x_armed : Option Armed} {x_latch : Table Word} {x_held : Table (Option Word)} {x_resLatch : Table (BitVec 256)} {x_engs : Table Eng} {x_pes : Table Pe} {x_raus : Table RauSite} {x_rauq : Table Rau} {x_lanes : Table Lane} {x_settle : Table Nat} {x_smus : Table Smu} {x_madcs : Table Madc} {x_tdcs : Table Tdc} {x_txs : Table TxPort} {x_rxs : Table RxPort} {x_dec : Dec} {x_kls : Table Kl} {x_mcsCopy : Option (List Byte)} {x_mcsBuf : Option (List Byte)} {x_mcsJob : Nat} {x_chans : Table Chan} {x_filling : BitVec 4} {x_ceFired : BitVec 4} {x_seas : Seas} {x_glbLock : Bool} {x_blob : Bool} {x_units : Table CalUnit} {x_calW : Table CalRec} {x_calF : Table CalRec} {x_thist : List (Nat × Int)} {x_faults : List FaultRec} {x_quietFrom : Nat} {x_chn : Chain} {x_card : Card} {x_busMaster : Bool} {x_msixEn : Bool} {x_msixMask : Bool} {x_outbox : List Out} {x_fresh : Nat} : Kept s (State.mk x_pending t.bar x_fsPar t.hbm x_tabs x_now x_wtc x_epoch x_armed x_latch x_held x_resLatch x_engs x_pes x_raus x_rauq x_lanes x_settle x_smus x_madcs x_tdcs x_txs x_rxs x_dec x_kls x_mcsCopy x_mcsBuf x_mcsJob x_chans x_filling x_ceFired x_seas x_glbLock x_blob x_units x_calW x_calF x_thist x_faults x_quietFrom x_chn x_card x_busMaster x_msixEn x_msixMask x_outbox x_fresh) := Kept.same h rfl rfl

theorem State.setEng_kept (h : Kept s t) (e : Nat) (x : Eng) : Kept s (State.setEng t e x) := by
  unfold State.setEng
  repeat' first
    | with_reducible first | assumption
    | intro _
    | dsimp only
    | with_reducible apply Kept.mk

theorem State.modEng_kept (h : Kept s t) (e : Nat) (f : Eng → Eng) : Kept s (State.modEng t e f) := by
  unfold State.modEng
  repeat' with_reducible first
    | assumption | apply State.setEng_kept

theorem State.setPe_kept (h : Kept s t) (n : Nat) (x : Pe) : Kept s (State.setPe t n x) := by
  unfold State.setPe
  repeat' first
    | with_reducible first | assumption
    | intro _
    | dsimp only
    | with_reducible apply Kept.mk

theorem State.modPe_kept (h : Kept s t) (n : Nat) (f : Pe → Pe) : Kept s (State.modPe t n f) := by
  unfold State.modPe
  repeat' with_reducible first
    | assumption | apply State.setPe_kept

theorem State.setSite_kept (h : Kept s t) (k : Nat) (x : RauSite) : Kept s (State.setSite t k x) := by
  unfold State.setSite
  repeat' first
    | with_reducible first | assumption
    | intro _
    | dsimp only
    | with_reducible apply Kept.mk

theorem State.setRau_kept (h : Kept s t) (u : Nat) (x : Rau) : Kept s (State.setRau t u x) := by
  unfold State.setRau
  repeat' first
    | with_reducible first | assumption
    | intro _
    | dsimp only
    | with_reducible apply Kept.mk

theorem State.setLane_kept (h : Kept s t) (k : Nat) (x : Lane) : Kept s (State.setLane t k x) := by
  unfold State.setLane
  repeat' first
    | with_reducible first | assumption
    | intro _
    | dsimp only
    | with_reducible apply Kept.mk

theorem State.modLane_kept (h : Kept s t) (k : Nat) (f : Lane → Lane) : Kept s (State.modLane t k f) := by
  unfold State.modLane
  repeat' with_reducible first
    | assumption | apply State.setLane_kept

theorem State.setSettle_kept (h : Kept s t) (k : Nat) (t_ : Nat) : Kept s (State.setSettle t k t_) := by
  unfold State.setSettle
  repeat' first
    | with_reducible first | assumption
    | intro _
    | dsimp only
    | with_reducible apply Kept.mk

theorem State.setSmu_kept (h : Kept s t) (n : Nat) (x : Smu) : Kept s (State.setSmu t n x) := by
  unfold State.setSmu
  repeat' first
    | with_reducible first | assumption
    | intro _
    | dsimp only
    | with_reducible apply Kept.mk

theorem State.setMadc_kept (h : Kept s t) (n : Nat) (x : Madc) : Kept s (State.setMadc t n x) := by
  unfold State.setMadc
  repeat' first
    | with_reducible first | assumption
    | intro _
    | dsimp only
    | with_reducible apply Kept.mk

theorem State.setTdc_kept (h : Kept s t) (k : Nat) (x : Tdc) : Kept s (State.setTdc t k x) := by
  unfold State.setTdc
  repeat' first
    | with_reducible first | assumption
    | intro _
    | dsimp only
    | with_reducible apply Kept.mk

theorem State.setTx_kept (h : Kept s t) (n : Nat) (x : TxPort) : Kept s (State.setTx t n x) := by
  unfold State.setTx
  repeat' first
    | with_reducible first | assumption
    | intro _
    | dsimp only
    | with_reducible apply Kept.mk

theorem State.modTx_kept (h : Kept s t) (n : Nat) (f : TxPort → TxPort) : Kept s (State.modTx t n f) := by
  unfold State.modTx
  repeat' with_reducible first
    | assumption | apply State.setTx_kept

theorem State.setRx_kept (h : Kept s t) (n : Nat) (x : RxPort) : Kept s (State.setRx t n x) := by
  unfold State.setRx
  repeat' first
    | with_reducible first | assumption
    | intro _
    | dsimp only
    | with_reducible apply Kept.mk

theorem State.modRx_kept (h : Kept s t) (n : Nat) (f : RxPort → RxPort) : Kept s (State.modRx t n f) := by
  unfold State.modRx
  repeat' with_reducible first
    | assumption | apply State.setRx_kept

theorem State.setKl_kept (h : Kept s t) (p : Nat) (x : Kl) : Kept s (State.setKl t p x) := by
  unfold State.setKl
  repeat' first
    | with_reducible first | assumption
    | intro _
    | dsimp only
    | with_reducible apply Kept.mk

theorem State.modKl_kept (h : Kept s t) (p : Nat) (f : Kl → Kl) : Kept s (State.modKl t p f) := by
  unfold State.modKl
  repeat' with_reducible first
    | assumption | apply State.setKl_kept

theorem State.modDec_kept (h : Kept s t) (f : Dec → Dec) : Kept s (State.modDec t f) := by
  unfold State.modDec
  repeat' first
    | with_reducible first | assumption
    | dsimp only
    | with_reducible apply Kept.mk

theorem State.setChan_kept (h : Kept s t) (k : Nat) (x : Chan) : Kept s (State.setChan t k x) := by
  unfold State.setChan
  repeat' first
    | with_reducible first | assumption
    | intro _
    | dsimp only
    | with_reducible apply Kept.mk

theorem State.modChan_kept (h : Kept s t) (k : Nat) (f : Chan → Chan) : Kept s (State.modChan t k f) := by
  unfold State.modChan
  repeat' with_reducible first
    | assumption | apply State.setChan_kept

theorem State.setUnit_kept (h : Kept s t) (u : Nat) (x : CalUnit) : Kept s (State.setUnit t u x) := by
  unfold State.setUnit
  repeat' first
    | with_reducible first | assumption
    | intro _
    | dsimp only
    | with_reducible apply Kept.mk

theorem State.modUnit_kept (h : Kept s t) (u : Nat) (f : CalUnit → CalUnit) : Kept s (State.modUnit t u f) := by
  unfold State.modUnit
  repeat' with_reducible first
    | assumption | apply State.setUnit_kept

theorem State.calDrop_kept (h : Kept s t) (u : Nat) : Kept s (State.calDrop t u) := by
  unfold State.calDrop
  repeat' with_reducible first
    | assumption | refine State.ite_kept (fun _ => ?_) (fun _ => ?_) | apply State.modUnit_kept

theorem State.modSeas_kept (h : Kept s t) (f : Seas → Seas) : Kept s (State.modSeas t f) := by
  unfold State.modSeas
  repeat' first
    | with_reducible first | assumption
    | dsimp only
    | with_reducible apply Kept.mk

theorem State.modCard_kept (h : Kept s t) (f : Card → Card) : Kept s (State.modCard t f) := by
  unfold State.modCard
  repeat' first
    | with_reducible first | assumption
    | dsimp only
    | with_reducible apply Kept.mk

theorem State.modChn_kept (h : Kept s t) (f : Chain → Chain) : Kept s (State.modChn t f) := by
  unfold State.modChn
  repeat' first
    | with_reducible first | assumption
    | dsimp only
    | with_reducible apply Kept.mk

theorem State.setTab_kept (h : Kept s t) (k : Nat) (v : Word64) : Kept s (State.setTab t k v) := by
  unfold State.setTab
  repeat' first
    | with_reducible first | assumption
    | intro _
    | dsimp only
    | with_reducible apply Kept.mk

theorem State.free_kept (h : Kept s t)  : Kept s (State.free t).2 := by
  unfold State.free
  repeat' first
    | with_reducible first | assumption
    | dsimp only
    | with_reducible apply Kept.mk

theorem State.emit_kept (h : Kept s t) (o : Out) : Kept s (State.emit t o) := by
  unfold State.emit
  repeat' first
    | with_reducible first | assumption
    | dsimp only
    | with_reducible apply Kept.mk

theorem State.raise_kept (h : Kept s t) (cls : Nat) (lvl : Nat) (kind : Nat) (idx : Nat) (info : Nat) : Kept s (State.raise t cls lvl kind idx info) := by
  unfold State.raise
  repeat' first
    | with_reducible first | assumption
    | dsimp only
    | with_reducible apply Kept.mk

theorem State.cfgErr_kept (h : Kept s t) (p : Path) : Kept s (State.cfgErr t p) := by
  unfold State.cfgErr
  repeat' with_reducible first
    | assumption | apply State.raise_kept

theorem State.irq_kept (h : Kept s t) (v : Nat) : Kept s (State.irq t v) := by
  unfold State.irq
  repeat' with_reducible first
    | assumption | refine State.ite_kept (fun _ => ?_) (fun _ => ?_) | apply State.emit_kept | apply State.put_kept

theorem State.countN_kept (h : Kept s t) (a : Nat) (b : Nat) (i : Nat) (n : Nat) : Kept s (State.countN t a b i n) := by
  unfold State.countN
  repeat' with_reducible first
    | assumption | refine State.ite_kept (fun _ => ?_) (fun _ => ?_) | apply State.put_kept | apply State.wr_kept

theorem State.count_kept (h : Kept s t) (a : Nat) (b : Nat) (i : Nat) : Kept s (State.count t a b i) := by
  unfold State.count
  repeat' with_reducible first
    | assumption | apply State.countN_kept

theorem State.setLatch_kept (h : Kept s t) (p : Path) (v : Word) : Kept s (State.setLatch t p v) := by
  unfold State.setLatch
  repeat' first
    | with_reducible first | assumption
    | intro _
    | dsimp only
    | with_reducible apply Kept.mk

theorem State.holdLo_kept (h : Kept s t) (p : Path) (a : Nat) (v : Option Word) : Kept s (State.holdLo t p a v) := by
  unfold State.holdLo
  repeat' first
    | with_reducible first | assumption
    | intro _
    | dsimp only
    | with_reducible apply Kept.mk

/-! Machine/Streams.lean -/

theorem State.siteRes_kept (h : Kept s t) (n : Nat) (sites : BitVec 4) (i : Nat) : Kept s (State.siteRes t n sites i) := by
  unfold State.siteRes
  repeat' first
    | with_reducible first | assumption | apply State.each_kept | apply State.iff_kept | apply State.put_kept
    | intro _

theorem State.ringLose_kept (h : Kept s t) (n : Nat) (sites : BitVec 4) (queueFull : Bool) : Kept s (State.ringLose t n sites queueFull) := by
  unfold State.ringLose
  repeat' first
    | with_reducible first | assumption | apply State.count_kept | apply State.iff_kept | apply State.modPe_kept | apply State.put_kept | apply State.siteRes_kept
    | intro _

theorem State.ringPush_kept (h : Kept s t) (n : Nat) (r : QRec) : Kept s (State.ringPush t n r) := by
  unfold State.ringPush
  repeat' with_reducible first
    | assumption | refine State.ite_kept (fun _ => ?_) (fun _ => ?_) | apply State.modPe_kept | apply State.ringLose_kept

theorem State.ringBeacon_kept (h : Kept s t) (n : Nat) (reason : BitVec 4) (prior : Word64) : Kept s (State.ringBeacon t n reason prior) := by
  unfold State.ringBeacon
  repeat' with_reducible first
    | assumption | refine State.ite_kept (fun _ => ?_) (fun _ => ?_) | apply State.modPe_kept | apply State.ringLose_kept

theorem State.ringPlace_kept (h : Kept s t) (n : Nat) (r : BitVec 256) : Kept s (State.ringPlace t n r) := by
  unfold State.ringPlace
  repeat' with_reducible first
    | assumption | apply State.hbmPut_kept | apply State.wr_kept

theorem State.fifoPut_kept (h : Kept s t) (n : Nat) (r : BitVec 256) : Kept s (State.fifoPut t n r) := by
  unfold State.fifoPut
  repeat' with_reducible first
    | assumption | refine State.ite_kept (fun _ => ?_) (fun _ => ?_) | apply State.count_kept | apply State.modRx_kept | apply State.put_kept | apply State.setRx_kept

theorem State.fifoBeacon_kept (h : Kept s t) (n : Nat) (reason : BitVec 4) (prior : Word64) : Kept s (State.fifoBeacon t n reason prior) := by
  unfold State.fifoBeacon
  repeat' with_reducible first
    | assumption | refine State.ite_kept (fun _ => ?_) (fun _ => ?_) | apply State.fifoPut_kept | apply State.setRx_kept

theorem State.fifoRecord_kept (h : Kept s t) (n : Nat) (f : Word64 → BitVec 256) : Kept s (State.fifoRecord t n f) := by
  unfold State.fifoRecord
  repeat' first
    | with_reducible first | assumption | apply State.fifoBeacon_kept | apply State.fifoPut_kept | apply State.iff_kept | apply State.modRx_kept
    | (intro x; refine (show Kept s x → _ from ?_) ?_; (on_goal 1 => clear_value x; intro hx); (on_goal 2 => subst x))
    | (intro x; clear_value x)
    | lift_lets
    | intro _

theorem State.aqLose_kept (h : Kept s t) (n : Nat) (queueFull : Bool) : Kept s (State.aqLose t n queueFull) := by
  unfold State.aqLose
  repeat' first
    | with_reducible first | assumption | apply State.count_kept | apply State.iff_kept | apply State.modRx_kept | apply State.put_kept
    | intro _

theorem State.aqPush_kept (h : Kept s t) (n : Nat) (r : QRec) : Kept s (State.aqPush t n r) := by
  unfold State.aqPush
  repeat' with_reducible first
    | assumption | refine State.ite_kept (fun _ => ?_) (fun _ => ?_) | apply State.aqLose_kept | apply State.modRx_kept

theorem State.aqBeacon_kept (h : Kept s t) (n : Nat) (reason : BitVec 4) (prior : Word64) : Kept s (State.aqBeacon t n reason prior) := by
  unfold State.aqBeacon
  repeat' with_reducible first
    | assumption | refine State.ite_kept (fun _ => ?_) (fun _ => ?_) | apply State.aqLose_kept | apply State.modRx_kept

theorem State.beaconAll_kept (h : Kept s t) (reason : BitVec 4) (prior : Word64) : Kept s (State.beaconAll t reason prior) := by
  unfold State.beaconAll
  repeat' first
    | with_reducible first | assumption | apply State.aqBeacon_kept | apply State.each_kept | apply State.fifoBeacon_kept | apply State.iff_kept | apply State.ringBeacon_kept
    | (intro x; refine (show Kept s x → _ from ?_) ?_; (on_goal 1 => clear_value x; intro hx); (on_goal 2 => subst x))
    | (intro x; clear_value x)
    | lift_lets
    | intro _

/-! Machine/TxSet.lean -/

theorem State.txSoon_kept (h : Kept s t) (n : Nat) (d : TxDue) : Kept s (State.txSoon t n d) := by
  unfold State.txSoon
  repeat' with_reducible first
    | assumption | apply State.modTx_kept

theorem State.txPar_kept (h : Kept s t) (n : Nat) (d : TxPar) : Kept s (State.txPar t n d) := by
  unfold State.txPar
  repeat' first
    | with_reducible first | assumption | apply State.modTx_kept | apply State.wr_kept | apply State.wr64_kept | apply KeptO.getD
    | (intro x; refine (show Kept s x → _ from ?_) ?_; (on_goal 1 => clear_value x; intro hx); (on_goal 2 => subst x))
    | (intro x; clear_value x)
    | lift_lets
    | intro _
    | refine Kept.snd (by with_reducible assumption) ?_
    | refine KeptO.use (by with_reducible assumption) ?_
    | refine KeptP.use (by with_reducible assumption) ?_
    | split

theorem State.txDue_kept (h : Kept s t) (n : Nat) (lim : Nat) : Kept s (State.txDue t n lim) := by
  unfold State.txDue
  repeat' first
    | with_reducible first | assumption | apply State.each_kept | apply State.modTx_kept | apply State.txPar_kept
    | (intro x; refine (show Kept s x → _ from ?_) ?_; (on_goal 1 => clear_value x; intro hx); (on_goal 2 => subst x))
    | (intro x; clear_value x)
    | lift_lets
    | intro _

theorem State.txDueAll_kept (h : Kept s t)  : Kept s (State.txDueAll t) := by
  unfold State.txDueAll
  repeat' first
    | with_reducible first | assumption | refine State.ite_kept (fun _ => ?_) (fun _ => ?_) | apply State.each_kept | apply State.txDue_kept
    | intro _

theorem State.marksNow_kept (h : Kept s t) (n : Nat) : Kept s (State.marksNow t n) := by
  unfold State.marksNow
  repeat' first
    | with_reducible first | assumption | apply State.each_kept | apply State.modTx_kept | apply State.txPar_kept
    | (intro x; refine (show Kept s x → _ from ?_) ?_; (on_goal 1 => clear_value x; intro hx); (on_goal 2 => subst x))
    | (intro x; clear_value x)
    | lift_lets
    | intro _

/-! Machine/Pattern.lean -/

theorem State.applyVec_kept (h : Kept s t) (n : Nat) (u : Nat → Nat) (k : Nat) (vec : List Word64) (t_ : Nat) (per : Nat) : Kept s (State.applyVec t n u k vec t_ per) := by
  unfold State.applyVec
  repeat' first
    | with_reducible first | assumption | apply State.each_kept | apply State.setLane_kept
    | intro _

theorem State.settleStarve_kept (h : Kept s t) (n : Nat) : Kept s (State.settleStarve t n) := by
  unfold State.settleStarve
  repeat' first
    | with_reducible first | assumption | apply State.applyVec_kept | apply State.modPe_kept
    | (intro x; refine (show Kept s x → _ from ?_) ?_; (on_goal 1 => clear_value x; intro hx); (on_goal 2 => subst x))
    | (intro x; clear_value x)
    | lift_lets
    | intro _
    | refine Kept.snd (by with_reducible assumption) ?_
    | refine KeptO.use (by with_reducible assumption) ?_
    | refine KeptP.use (by with_reducible assumption) ?_
    | split

theorem State.bankStarve_kept (h : Kept s t) (n : Nat) (ts : Option (BitVec 6)) : Kept s (State.bankStarve t n ts) := by
  unfold State.bankStarve
  repeat' with_reducible first
    | assumption | apply State.applyVec_kept | apply State.modPe_kept

theorem State.bankRelease_kept (h : Kept s t) (n : Nat) : Kept s (State.bankRelease t n) := by
  unfold State.bankRelease
  repeat' with_reducible first
    | assumption | apply State.modPe_kept | apply State.settleStarve_kept

/-! Machine/Engine.lean -/

theorem State.setDmem_kept (h : Kept s t) (e : Nat) (w : Nat) (v : Word64) : Kept s (State.setDmem t e w v) := by
  unfold State.setDmem
  repeat' with_reducible first
    | assumption | apply State.wr64_kept

/-! Machine/Interval.lean -/

theorem State.tdcArm_kept (h : Kept s t) (n : Nat) (t_ : Nat) : Kept s (State.tdcArm t n t_) := by
  unfold State.tdcArm
  repeat' with_reducible first
    | assumption | refine State.ite_kept (fun _ => ?_) (fun _ => ?_) | apply State.calDrop_kept | apply State.setTdc_kept

theorem State.tdcArmOr_kept (h : Kept s t) (n : Nat) (t_ : Nat) (refuse : State → State) (_ : ∀ u, Kept s u → Kept s (refuse u)) : Kept s (State.tdcArmOr t n t_ refuse) := by
  unfold State.tdcArmOr
  repeat' first
    | with_reducible first | assumption | refine State.ite_kept (fun _ => ?_) (fun _ => ?_) | apply State.tdcArm_kept
    | intro _
    | dsimp only
    | solve_by_elim

theorem State.tdcCancel_kept (h : Kept s t) (n t_ : Nat) : Kept s (State.tdcCancel t n t_) := by
  unfold State.tdcCancel
  lift_lets
  intro x w
  clear_value x w
  intro y
  have hy : Kept s y := State.setTdc_kept h ..
  clear_value y
  split
  · assumption
  · split
    · exact State.modEng_kept hy ..
    · exact hy

theorem State.tdcCancelBank_kept (h : Kept s t) (n : Nat) : Kept s (State.tdcCancelBank t n) := by
  unfold State.tdcCancelBank
  repeat' with_reducible first
    | assumption | apply State.tdcCancel_kept

theorem State.tdcRejudge_kept (h : Kept s t) (k : Nat) : Kept s (State.tdcRejudge t k) := by
  unfold State.tdcRejudge
  repeat' with_reducible first
    | assumption | refine State.ite_kept (fun _ => ?_) (fun _ => ?_) | apply State.setTdc_kept

theorem State.tdcCold_kept (h : Kept s t)  : Kept s (State.tdcCold t) := by
  unfold State.tdcCold
  repeat' first
    | with_reducible first | assumption | refine State.ite_kept (fun _ => ?_) (fun _ => ?_)
    | intro _
    | dsimp only
    | with_reducible apply Kept.mk

/-! Machine/Stops.lean -/

theorem State.engFault_kept (h : Kept s t) (e : Nat) (cls : Nat) (lvl : Nat) : Kept s (State.engFault t e cls lvl) := by
  unfold State.engFault
  repeat' with_reducible first
    | assumption | apply State.raise_kept

theorem State.keepOld_kept (h : Kept s t) (n : Nat) (o : Old) : Kept s (State.keepOld t n o) := by
  unfold State.keepOld
  repeat' with_reducible first
    | assumption | refine State.ite_kept (fun _ => ?_) (fun _ => ?_) | apply State.modRx_kept

theorem State.reanchor_kept (h : Kept s t) (n : Nat) (pos : Nat) : Kept s (State.reanchor t n pos) := by
  unfold State.reanchor
  repeat' with_reducible first
    | assumption | refine State.ite_kept (fun _ => ?_) (fun _ => ?_) | apply State.keepOld_kept | apply State.modTx_kept

theorem State.txHalt_kept (h : Kept s t) (n : Nat) (pos : Nat) (st : TxSt) : Kept s (State.txHalt t n pos st) := by
  unfold State.txHalt
  repeat' with_reducible first
    | assumption | apply State.modTx_kept | apply State.reanchor_kept

theorem State.txSlotStop_kept (h : Kept s t) (n : Nat) : Kept s (State.txSlotStop t n) := by
  unfold State.txSlotStop
  repeat' with_reducible first
    | assumption | refine State.ite_kept (fun _ => ?_) (fun _ => ?_) | apply State.marksNow_kept | apply State.modTx_kept | apply State.txHalt_kept

theorem State.slotOut_kept (h : Kept s t) (e : Nat) (ts : Option (BitVec 6)) : Kept s (State.slotOut t e ts) := by
  unfold State.slotOut
  repeat' with_reducible first
    | assumption | refine State.ite_kept (fun _ => ?_) (fun _ => ?_) | apply State.bankStarve_kept | apply State.txSlotStop_kept

theorem State.engStopOut_kept (h : Kept s t) (e : Nat) (reason : Nat) (addr : Nat) (past : Bool) (out : Option (Option (BitVec 6))) : Kept s (State.engStopOut t e reason addr past out) := by
  unfold State.engStopOut
  repeat' first
    | with_reducible first | assumption | apply State.iff_kept | apply State.modPe_kept | apply State.setEng_kept | apply State.slotOut_kept | apply State.tdcCancelBank_kept | apply State.wr_kept
    | (intro x; refine (show Kept s x → _ from ?_) ?_; (on_goal 1 => clear_value x; intro hx); (on_goal 2 => subst x))
    | (intro x; clear_value x)
    | lift_lets
    | intro _
    | refine Kept.snd (by with_reducible assumption) ?_
    | refine KeptO.use (by with_reducible assumption) ?_
    | refine KeptP.use (by with_reducible assumption) ?_
    | split

theorem State.engStop_kept (h : Kept s t) (e : Nat) (reason : Nat) (addr : Nat) (past : Bool := false) : Kept s (State.engStop t e reason addr past) := by
  unfold State.engStop
  repeat' with_reducible first
    | assumption | refine State.ite_kept (fun _ => ?_) (fun _ => ?_) | apply State.engStopOut_kept

theorem State.engStopNow_kept (h : Kept s t) (e : Nat) (reason : Nat) : Kept s (State.engStopNow t e reason) := by
  unfold State.engStopNow
  repeat' with_reducible first
    | assumption | refine State.ite_kept (fun _ => ?_) (fun _ => ?_) | apply State.engStop_kept

theorem State.engStopReq_kept (h : Kept s t) (e : Nat) (reason : Nat) : Kept s (State.engStopReq t e reason) := by
  unfold State.engStopReq
  repeat' with_reducible first
    | assumption | refine State.ite_kept (fun _ => ?_) (fun _ => ?_) | apply State.engStopNow_kept | apply State.modEng_kept

theorem State.illegal_kept (h : Kept s t) (e : Nat) (addr : Nat) : Kept s (State.illegal t e addr) := by
  unfold State.illegal
  repeat' with_reducible first
    | assumption | apply State.engFault_kept | apply State.engStop_kept

theorem State.mchk_kept (h : Kept s t) (e : Nat) (addr : Nat) : Kept s (State.mchk t e addr) := by
  unfold State.mchk
  repeat' with_reducible first
    | assumption | apply State.engFault_kept | apply State.engStop_kept

theorem State.timingFault_kept (h : Kept s t) (e : Nat) (lvl : Nat) : Kept s (State.timingFault t e lvl) := by
  unfold State.timingFault
  repeat' with_reducible first
    | assumption | apply State.count_kept | apply State.engFault_kept

theorem State.timing_kept (h : Kept s t) (e : Nat) (addr : Nat) : Kept s (State.timing t e addr) := by
  unfold State.timing
  repeat' with_reducible first
    | assumption | apply State.engStop_kept | apply State.timingFault_kept

theorem State.engIrq_kept (h : Kept s t) (e : Nat) (i : Nat) : Kept s (State.engIrq t e i) := by
  unfold State.engIrq
  repeat' first
    | with_reducible first | assumption | apply State.iff_kept | apply State.irq_kept
    | intro _

theorem State.boundary_kept (h : Kept s t) (e : Nat) : Kept s (State.boundary t e) := by
  unfold State.boundary
  repeat' with_reducible first
    | assumption | refine State.ite_kept (fun _ => ?_) (fun _ => ?_) | apply State.engStop_kept | apply State.setEng_kept

theorem State.late_kept (h : Kept s t) (e : Nat) : Kept s (State.late t e) := by
  unfold State.late
  repeat' with_reducible first
    | assumption | apply State.count_kept | apply State.modEng_kept

theorem State.judgeAt_kept (h : Kept s t) (e : Nat) (t_ : BitVec 48) (pair : Bool) : Kept s (State.judgeAt t e t_ pair) := by
  unfold State.judgeAt
  repeat' with_reducible first
    | assumption | refine State.ite_kept (fun _ => ?_) (fun _ => ?_) | apply State.late_kept | apply State.modEng_kept

/-! Machine/Access.lean -/

theorem State.hostStat_kept (h : Kept s t) (i : Nat) (a : Nat) : Kept s (State.hostStat t i a) := by
  unfold State.hostStat
  repeat' first
    | with_reducible first | assumption | apply State.iff_kept | apply State.put_kept | apply State.wr_kept
    | (intro x; refine (show Kept s x → _ from ?_) ?_; (on_goal 1 => clear_value x; intro hx); (on_goal 2 => subst x))
    | (intro x; clear_value x)
    | lift_lets
    | intro _

theorem State.winterAnswer_kept (h : Kept s t)  : Kept s (State.winterAnswer t) := by
  unfold State.winterAnswer
  repeat' first
    | with_reducible first | assumption | apply State.iff_kept | apply State.modSeas_kept | apply State.put_kept
    | intro _

theorem State.gate_kept (h : Kept s t) (p : Path) (a : Nat) : Kept s (State.gate t p a).2 := by
  unfold State.gate
  repeat' first
    | with_reducible first | assumption | refine State.ite_kept (fun _ => ?_) (fun _ => ?_) | apply State.put_kept | apply State.raise_kept | apply State.winterAnswer_kept
    | (intro x; refine (show Kept s x → _ from ?_) ?_; (on_goal 1 => clear_value x; intro hx); (on_goal 2 => subst x))
    | (intro x; clear_value x)
    | lift_lets
    | split

theorem State.named_kept (h : Kept s t) (a : Nat) : Kept s (State.named t a).2 := by
  unfold State.named
  repeat' first
    | with_reducible first | assumption | refine State.ite_kept (fun _ => ?_) (fun _ => ?_) | apply State.hostStat_kept
    | split

theorem State.reach_kept (h : Kept s t) (p : Path) (a : Nat) (wr : Bool) : Kept s (State.reach t p a wr).2 := by
  unfold State.reach
  repeat' first
    | with_reducible first | assumption | refine State.ite_kept (fun _ => ?_) (fun _ => ?_) | apply State.gate_kept | apply State.illegal_kept | apply State.named_kept
    | refine Kept.snd (by with_reducible assumption) ?_
    | refine KeptO.use (by with_reducible assumption) ?_
    | refine KeptP.use (by with_reducible assumption) ?_
    | split

theorem State.host_kept (h : Kept s t) (p : Path) (a : Nat) (f : State → State) (k : ∀ u, Kept s u → Kept s (f u)) :
    Kept s (t.host p a f) := by
  have hr := State.reach_kept h p a true
  unfold State.host
  generalize t.reach p a true = r at hr ⊢
  obtain ⟨v, u⟩ := r
  cases v
  · exact k u hr
  · exact hr

/-! Machine/VecRun.lean -/

theorem State.oneVec_kept (h : Kept s t) (n : Nat) (q : VisRun) (vec : List Word64) : Kept s (State.oneVec t n q vec) := by
  unfold State.oneVec
  repeat' first
    | with_reducible first | assumption | refine State.ite_kept (fun _ => ?_) (fun _ => ?_) | apply State.applyVec_kept | apply State.iff_kept | apply State.modEng_kept | apply State.modPe_kept | apply State.siteRes_kept
    | (intro x; refine (show Kept s x → _ from ?_) ?_; (on_goal 1 => clear_value x; intro hx); (on_goal 2 => subst x))
    | (intro x; clear_value x)
    | lift_lets
    | intro _

theorem State.xSlot_kept (h : Kept s t) (n : Nat) (q : VisRun) : Kept s (State.xSlot t n q) := by
  unfold State.xSlot
  repeat' with_reducible first
    | assumption | refine State.ite_kept (fun _ => ?_) (fun _ => ?_) | apply State.applyVec_kept | apply State.modEng_kept

theorem State.vecUsed_kept (h : Kept s t) (n : Nat) (q : VisRun) (v : CVec) : Kept s (State.vecUsed t n q v) := by
  unfold State.vecUsed
  repeat' first
    | with_reducible first | assumption | refine State.ite_kept (fun _ => ?_) (fun _ => ?_) | apply State.modPe_kept
    | intro _
    | refine Kept.snd (by with_reducible assumption) ?_
    | refine KeptO.use (by with_reducible assumption) ?_
    | refine KeptP.use (by with_reducible assumption) ?_
    | split

theorem State.keepRun_kept (h : Kept s t) (n : Nat) (q : VisRun) : Kept s (State.keepRun t n q) := by
  unfold State.keepRun
  repeat' with_reducible first
    | assumption | apply State.modPe_kept

theorem State.endRun_kept (h : Kept s t) (n : Nat) (r : Option Bool) : Kept s (State.endRun t n r) := by
  unfold State.endRun
  repeat' first
    | with_reducible first | assumption | apply State.modEng_kept | apply State.modPe_kept
    | (intro x; refine (show Kept s x → _ from ?_) ?_; (on_goal 1 => clear_value x; intro hx); (on_goal 2 => subst x))
    | (intro x; clear_value x)
    | lift_lets
    | intro _
    | refine Kept.snd (by with_reducible assumption) ?_
    | refine KeptO.use (by with_reducible assumption) ?_
    | refine KeptP.use (by with_reducible assumption) ?_
    | split

theorem State.vecRun_kept (h : Kept s t) (n f : Nat) (q : VisRun) : Kept s (State.vecRun n f q t) := by
  induction f generalizing q t with
  | zero => exact State.keepRun_kept h n q
  | succ f ih =>
    unfold State.vecRun
    dsimp only
    split
    · exact State.keepRun_kept h n q
    · split
      · exact State.endRun_kept h n _
      · split
        · exact ih (State.xSlot_kept h n q) q
        · split
          · exact State.keepRun_kept h n q
          · split
            · exact State.mchk_kept h n _
            · split
              · exact State.illegal_kept (State.keepRun_kept (State.vecUsed_kept (State.oneVec_kept h ..) ..) ..) ..
              · exact ih (State.keepRun_kept (State.vecUsed_kept (State.oneVec_kept h ..) ..) ..) _

theorem State.vecGo_kept (h : Kept s t) (n : Nat) (q : VisRun) : Kept s (State.vecGo t n q) := by
  unfold State.vecGo
  repeat' first
    | with_reducible first | assumption | refine State.ite_kept (fun _ => ?_) (fun _ => ?_) | apply State.boundary_kept | apply State.iff_kept | apply State.modEng_kept | apply State.vecRun_kept
    | (intro x; refine (show Kept s x → _ from ?_) ?_; (on_goal 1 => clear_value x; intro hx); (on_goal 2 => subst x))
    | (intro x; clear_value x)
    | lift_lets
    | intro _

theorem State.vecOn_kept (h : Kept s t) (n : Nat) : Kept s (State.vecOn t n) := by
  unfold State.vecOn
  repeat' first
    | with_reducible first | assumption | refine State.ite_kept (fun _ => ?_) (fun _ => ?_) | apply State.vecGo_kept
    | refine Kept.snd (by with_reducible assumption) ?_
    | refine KeptO.use (by with_reducible assumption) ?_
    | refine KeptP.use (by with_reducible assumption) ?_
    | split

theorem State.vecAll_kept (h : Kept s t)  : Kept s (State.vecAll t) := by
  unfold State.vecAll
  repeat' first
    | with_reducible first | assumption | apply State.each_kept | apply State.vecOn_kept
    | intro _

/-! Machine/Time.lean -/

theorem State.setEpoch_kept (h : Kept s t) (e : BitVec 16) (wrapped : Bool) : Kept s (State.setEpoch t e wrapped) := by
  unfold State.setEpoch
  repeat' first
    | with_reducible first | assumption | apply State.iff_kept | apply State.put_kept
    | intro _
    | dsimp only
    | with_reducible apply Kept.mk

theorem State.clock_kept (h : Kept s t) (d : Nat) : Kept s (State.clock t d) := by
  unfold State.clock
  repeat' first
    | with_reducible first | assumption | refine State.ite_kept (fun _ => ?_) (fun _ => ?_)
    | dsimp only
    | with_reducible apply Kept.mk

theorem State.wrap_kept (h : Kept s t)  : Kept s (State.wrap t) := by
  unfold State.wrap
  repeat' with_reducible first
    | assumption | apply State.beaconAll_kept | apply State.setEpoch_kept

theorem State.rejudge_kept (h : Kept s t) (d : BitVec 48) : Kept s (State.rejudge t d) := by
  unfold State.rejudge
  repeat' first
    | with_reducible first | assumption | refine State.ite_kept (fun _ => ?_) (fun _ => ?_) | apply State.each_kept | apply State.judgeAt_kept | apply State.keepOld_kept | apply State.modPe_kept | apply State.modTx_kept | apply State.tdcRejudge_kept
    | (intro x; refine (show Kept s x → _ from ?_) ?_; (on_goal 1 => clear_value x; intro hx); (on_goal 2 => subst x))
    | (intro x; clear_value x)
    | lift_lets
    | intro _
    | refine Kept.snd (by with_reducible assumption) ?_
    | refine KeptO.use (by with_reducible assumption) ?_
    | refine KeptP.use (by with_reducible assumption) ?_
    | split

theorem State.slotRef_kept (h : Kept s t)  : Kept s (State.slotRef t) := by
  unfold State.slotRef
  repeat' with_reducible first
    | assumption | apply State.put_kept | apply State.wr64_kept

theorem State.resyncFrom_kept (h : Kept s t) (old : Word64) (r : Armed) : Kept s (State.resyncFrom t old r) := by
  unfold State.resyncFrom
  repeat' first
    | with_reducible first | assumption | apply State.beaconAll_kept | apply State.count_kept | apply State.iff_kept | apply State.irq_kept | apply State.modDec_kept | apply State.put_kept | apply State.rejudge_kept | apply State.setEpoch_kept | apply State.slotRef_kept | apply State.wr64_kept
    | (intro x; refine (show Kept s x → _ from ?_) ?_; (on_goal 1 => clear_value x; intro hx); (on_goal 2 => subst x))
    | (intro x; clear_value x)
    | lift_lets
    | intro _
    | refine Kept.snd (by with_reducible assumption) ?_
    | refine KeptO.use (by with_reducible assumption) ?_
    | refine KeptP.use (by with_reducible assumption) ?_
    | split
    | dsimp only
    | with_reducible apply Kept.mk

theorem State.applyResync_kept (h : Kept s t) (r : Armed) : Kept s (State.applyResync t r) := by
  unfold State.applyResync
  repeat' with_reducible first
    | assumption | refine State.ite_kept (fun _ => ?_) (fun _ => ?_) | apply State.resyncFrom_kept

theorem State.moment_kept (h : Kept s t) (k : Nat) : Kept s (State.moment t k) := by
  unfold State.moment
  repeat' first
    | with_reducible first | assumption | refine State.ite_kept (fun _ => ?_) (fun _ => ?_) | apply State.applyResync_kept | apply State.beaconAll_kept | apply State.clock_kept | apply State.txDueAll_kept | apply State.vecAll_kept | apply State.wrap_kept
    | (intro x; refine (show Kept s x → _ from ?_) ?_; (on_goal 1 => clear_value x; intro hx); (on_goal 2 => subst x))
    | (intro x; clear_value x)
    | lift_lets
    | refine Kept.snd (by with_reducible assumption) ?_
    | refine KeptO.use (by with_reducible assumption) ?_
    | refine KeptP.use (by with_reducible assumption) ?_
    | split

theorem State.pass_kept (h : Kept s t) (f d : Nat) : Kept s (State.pass f d t) := by
  induction f generalizing d t with
  | zero => exact State.clock_kept h d
  | succ f ih =>
    unfold State.pass
    split
    · exact State.clock_kept h d
    · exact ih (State.moment_kept h _) _

theorem State.advance_kept (h : Kept s t) (d : Nat) : Kept s (State.advance t d) := by
  unfold State.advance
  repeat' with_reducible first
    | assumption | refine State.ite_kept (fun _ => ?_) (fun _ => ?_) | apply State.clock_kept | apply State.pass_kept

theorem State.advanceTo_kept (h : Kept s t) (t_ : Nat) : Kept s (State.advanceTo t t_) := by
  unfold State.advanceTo
  repeat' with_reducible first
    | assumption | apply State.advance_kept

theorem State.vecTo_kept (h : Kept s t) (n : Nat) (p : State → Bool) (f : Nat) : Kept s (State.vecTo n p f t) := by
  induction f generalizing t with
  | zero => exact h
  | succ f ih =>
    unfold State.vecTo
    split
    · exact h
    · exact ih (State.advanceTo_kept h _)

theorem State.vecWait_kept (h : Kept s t) (e : Nat) : Kept s (State.vecWait t e) := by
  unfold State.vecWait
  repeat' with_reducible first
    | assumption | refine State.ite_kept (fun _ => ?_) (fun _ => ?_) | apply State.vecTo_kept

theorem State.advanceWtc_kept (h : Kept s t) (t_ : BitVec 48) : Kept s (State.advanceWtc t t_) := by
  unfold State.advanceWtc
  repeat' with_reducible first
    | assumption | refine State.ite_kept (fun _ => ?_) (fun _ => ?_) | apply State.advance_kept

theorem State.idle_kept (h : Kept s t)  : Kept s (State.idle t) := by
  unfold State.idle
  repeat' with_reducible first
    | assumption | apply State.advance_kept

theorem opRefWarmFall_kept (h : Kept s t)  : Kept s (opRefWarmFall t) := by
  unfold opRefWarmFall
  repeat' with_reducible first
    | assumption | refine State.ite_kept (fun _ => ?_) (fun _ => ?_) | apply State.modSeas_kept | apply State.put_kept | apply State.raise_kept | apply State.tdcCold_kept

theorem opRefLost_kept (h : Kept s t)  : Kept s (opRefLost t) := by
  unfold opRefLost
  repeat' with_reducible first
    | assumption | refine State.ite_kept (fun _ => ?_) (fun _ => ?_) | apply State.modSeas_kept | apply State.put_kept | apply State.raise_kept

theorem opPllLock_kept (h : Kept s t)  : Kept s (opPllLock t) := by
  unfold opPllLock
  repeat' first
    | with_reducible first | assumption | apply State.iff_kept | apply State.modDec_kept | apply State.put_kept
    | intro _

theorem State.toMoment_kept (h : Kept s t) (d : Nat) : Kept s (State.toMoment t d) := by
  unfold State.toMoment
  repeat' first
    | with_reducible first | assumption | refine State.ite_kept (fun _ => ?_) (fun _ => ?_) | apply State.advance_kept
    | refine Kept.snd (by with_reducible assumption) ?_
    | refine KeptO.use (by with_reducible assumption) ?_
    | refine KeptP.use (by with_reducible assumption) ?_
    | split

theorem opResync_kept (h : Kept s t) (p : Path) : Kept s (opResync p t) := by
  unfold opResync
  repeat' first
    | with_reducible first | assumption | refine State.ite_kept (fun _ => ?_) (fun _ => ?_) | apply State.cfgErr_kept | apply State.iff_kept | apply State.irq_kept | apply State.modDec_kept | apply State.put_kept
    | (intro x; refine (show Kept s x → _ from ?_) ?_; (on_goal 1 => clear_value x; intro hx); (on_goal 2 => subst x))
    | (intro x; clear_value x)
    | lift_lets
    | intro _
    | dsimp only
    | with_reducible apply Kept.mk

theorem opCancel_kept (h : Kept s t)  : Kept s (opCancel t) := by
  unfold opCancel
  repeat' first
    | with_reducible first | assumption
    | refine Kept.snd (by with_reducible assumption) ?_
    | refine KeptO.use (by with_reducible assumption) ?_
    | refine KeptP.use (by with_reducible assumption) ?_
    | split
    | dsimp only
    | with_reducible apply Kept.mk

theorem opResyncApply_kept (h : Kept s t)  : Kept s (opResyncApply t) := by
  unfold opResyncApply
  repeat' first
    | with_reducible first | assumption | refine State.ite_kept (fun _ => ?_) (fun _ => ?_) | apply State.advance_kept
    | refine Kept.snd (by with_reducible assumption) ?_
    | refine KeptO.use (by with_reducible assumption) ?_
    | refine KeptP.use (by with_reducible assumption) ?_
    | split

/-! Machine/Issue.lean -/

theorem State.plainSlot_kept (h : Kept s t) (e : Nat) : Kept s (State.plainSlot t e) := by
  unfold State.plainSlot
  repeat' with_reducible first
    | assumption | refine State.ite_kept (fun _ => ?_) (fun _ => ?_) | apply State.applyVec_kept | apply State.modEng_kept

theorem State.offSlots_kept (h : Kept s t) (e : Nat) (ts : BitVec 6) (k : Nat) : Kept s (State.offSlots t e ts k) := by
  unfold State.offSlots
  repeat' with_reducible first
    | assumption | refine State.ite_kept (fun _ => ?_) (fun _ => ?_) | apply State.applyVec_kept | apply State.modEng_kept

theorem State.fillSlots_kept (h : Kept s t) (e : Nat) (f : Form) (on : Bool) : Kept s (State.fillSlots t e f on) := by
  unfold State.fillSlots
  repeat' first
    | with_reducible first | assumption | refine State.ite_kept (fun _ => ?_) (fun _ => ?_) | apply State.offSlots_kept | apply State.plainSlot_kept
    | refine Kept.snd (by with_reducible assumption) ?_
    | refine KeptO.use (by with_reducible assumption) ?_
    | refine KeptP.use (by with_reducible assumption) ?_
    | split

theorem State.run_kept (h : Kept s t) (e : Nat) (f : Form) (body : State → State) (_ : ∀ u, Kept s u → Kept s (body u)) : Kept s (State.run t e f body) := by
  unfold State.run
  repeat' first
    | with_reducible first | assumption | refine State.ite_kept (fun _ => ?_) (fun _ => ?_) | apply State.fillSlots_kept | apply State.modEng_kept
    | (intro x; refine (show Kept s x → _ from ?_) ?_; (on_goal 1 => clear_value x; intro hx); (on_goal 2 => subst x))
    | (intro x; clear_value x)
    | lift_lets
    | intro _
    | dsimp only
    | solve_by_elim

theorem State.skip_kept (h : Kept s t) (e : Nat) (f : Form) : Kept s (State.skip t e f) := by
  unfold State.skip
  repeat' with_reducible first
    | assumption | apply State.fillSlots_kept | apply State.modEng_kept

theorem State.ucodeEcc_kept (h : Kept s t) (e : Nat) : Kept s (State.ucodeEcc t e) := by
  unfold State.ucodeEcc
  repeat' with_reducible first
    | assumption | apply State.count_kept | apply State.engFault_kept

theorem State.loopPass_kept (h : Kept s t) (n : Nat) (lo : Nat) (hi : Nat) : Kept s (State.loopPass t n lo hi) := by
  unfold State.loopPass
  repeat' with_reducible first
    | assumption | refine State.ite_kept (fun _ => ?_) (fun _ => ?_) | apply State.setPe_kept

theorem State.path_kept (h : Kept s t) (x : Iss) (f : Form) (pc : Nat) : Kept s (State.path t x f pc) := by
  unfold State.path
  repeat' first
    | with_reducible first | assumption | refine State.ite_kept (fun _ => ?_) (fun _ => ?_) | apply State.iff_kept | apply State.loopPass_kept | apply State.modPe_kept
    | (intro x; refine (show Kept s x → _ from ?_) ?_; (on_goal 1 => clear_value x; intro hx); (on_goal 2 => subst x))
    | (intro x; clear_value x)
    | lift_lets
    | intro _
    | refine Kept.snd (by with_reducible assumption) ?_
    | refine KeptO.use (by with_reducible assumption) ?_
    | refine KeptP.use (by with_reducible assumption) ?_
    | split

theorem State.execute_kept {s0 : State} (h0 : Kept s s0) (h : Kept s t) (x : Iss) (f : Form) (body : State → State)
    (hb : ∀ u, Kept s u → Kept s (body u)) : Kept s (State.execute s0 t x f body) := by
  unfold State.execute
  dsimp only
  split
  · exact State.mchk_kept (State.put_kept h ..) ..
  · split
    · exact State.path_kept (State.run_kept (State.iff_kept h fun u hu => State.ucodeEcc_kept hu ..) _ _ _ hb) ..
    · split
      · exact State.timing_kept h ..
      · exact h0

theorem State.decoded_kept {s0 : State} (h0 : Kept s s0) (h : Kept s t) (x : Iss) (f : Form) (body : State → State)
    (hb : ∀ u, Kept s u → Kept s (body u)) : Kept s (State.decoded s0 t x f body) := by
  unfold State.decoded
  dsimp only
  split
  · exact State.illegal_kept h ..
  · split
    · exact State.execute_kept h0 h _ _ _ hb
    · exact State.path_kept (State.skip_kept h ..) ..

theorem State.issue_kept (h : Kept s t) (x : Iss) (f : Form) (body : State → State) (_ : ∀ u, Kept s u → Kept s (body u)) : Kept s (State.issue t x f body) := by
  unfold State.issue
  repeat' first
    | with_reducible first | assumption | refine State.ite_kept (fun _ => ?_) (fun _ => ?_) | apply State.advanceTo_kept | apply State.decoded_kept | apply State.engFault_kept | apply State.iff_kept | apply State.mchk_kept | apply State.vecWait_kept
    | (intro x; refine (show Kept s x → _ from ?_) ?_; (on_goal 1 => clear_value x; intro hx); (on_goal 2 => subst x))
    | (intro x; clear_value x)
    | lift_lets
    | intro _

theorem State.branch_kept (h : Kept s t) (e : Nat) (t_ : Int) : Kept s (State.branch t e t_) := by
  unfold State.branch
  repeat' with_reducible first
    | assumption | refine State.ite_kept (fun _ => ?_) (fun _ => ?_) | apply State.illegal_kept | apply State.modEng_kept

theorem State.setReg_kept (h : Kept s t) (x : Iss) (r : Gr) (v : Word64) : Kept s (State.setReg t x r v) := by
  unfold State.setReg
  repeat' with_reducible first
    | assumption | apply State.modEng_kept

theorem State.takeTag_kept (h : Kept s t) (x : Iss) (rd : Gr) (v : Option Word64) (w : TagWhy) : Kept s (State.takeTag t x rd v w) := by
  unfold State.takeTag
  repeat' with_reducible first
    | assumption | apply State.modEng_kept

end

end Sys2Proof.Machine
end

