-- ==== Sys2Proof/Laws/KeptIssue.lean ====
section
/-! SUPPORT. That the operations of the instruction families keep the canonical forms, one lemma per operation. -/

namespace Sys2Proof.Machine

section
variable {s t : State}

/-! Machine/Flow.lean -/

theorem opLoop_kept (h : Kept s t) (e : Nat) (c : Fin 8) (off : Word) : Kept s (opLoop e c off t) := by
  unfold opLoop
  repeat' first
    | with_reducible first | assumption | refine State.ite_kept (fun _ => ?_) (fun _ => ?_) | apply State.branch_kept | apply State.iff_kept | apply State.modEng_kept
    | (intro x; refine (show Kept s x → _ from ?_) ?_; (on_goal 1 => clear_value x; intro hx); (on_goal 2 => subst x))
    | (intro x; clear_value x)
    | lift_lets
    | intro _

theorem State.callTo_kept (h : Kept s t) (e : Nat) (t_ : Int) : Kept s (State.callTo t e t_) := by
  unfold State.callTo
  repeat' with_reducible first
    | assumption | refine State.ite_kept (fun _ => ?_) (fun _ => ?_) | apply State.branch_kept | apply State.illegal_kept | apply State.setEng_kept

theorem opRet_kept (h : Kept s t) (e : Nat) : Kept s (opRet e t) := by
  unfold opRet
  repeat' first
    | with_reducible first | assumption | apply State.branch_kept | apply State.illegal_kept | apply State.setEng_kept
    | (intro x; refine (show Kept s x → _ from ?_) ?_; (on_goal 1 => clear_value x; intro hx); (on_goal 2 => subst x))
    | (intro x; clear_value x)
    | lift_lets
    | refine Kept.snd (by with_reducible assumption) ?_
    | refine KeptO.use (by with_reducible assumption) ?_
    | refine KeptP.use (by with_reducible assumption) ?_
    | split

/-! Machine/Int.lean -/

theorem State.int3_kept (h : Kept s t) (x : Iss) (rd : Gr) (ra : Gr) (rb : Gr) (f : Word64 → Word64 → Word64) : Kept s (State.int3 t x rd ra rb f) := by
  unfold State.int3
  repeat' first
    | with_reducible first | assumption | apply State.issue_kept | apply State.setReg_kept
    | intro _

theorem State.intI_kept (h : Kept s t) (x : Iss) (rd : Gr) (ra : Gr) (ty : ImmTy) (imm : Word) (f : Word64 → Word64 → Word64) : Kept s (State.intI t x rd ra ty imm f) := by
  unfold State.intI
  repeat' first
    | with_reducible first | assumption | apply State.issue_kept | apply State.setReg_kept
    | intro _

theorem State.setSpecial_kept (h : Kept s t) (e : Nat) (num : BitVec 8) (v : Word64) : KeptO s (t.setSpecial e num v) := by
  unfold State.setSpecial
  split
  · exact .some (State.modEng_kept h ..)
  · exact .some (State.modEng_kept h ..)
  · exact .ite (fun _ => .some (State.modPe_kept h ..)) (fun _ => .none)
  · exact .none

theorem opMvs_kept (h : Kept s t) (x : Iss) (wr : Bool) (r : Gr) (num : BitVec 8) : Kept s (opMvs x wr r num t) := by
  unfold opMvs
  repeat' first
    | with_reducible first | assumption | refine State.ite_kept (fun _ => ?_) (fun _ => ?_) | apply State.illegal_kept | apply State.setReg_kept | apply State.setSpecial_kept | apply KeptO.getD
    | (intro x; refine (show Kept s x → _ from ?_) ?_; (on_goal 1 => clear_value x; intro hx); (on_goal 2 => subst x))
    | (intro x; clear_value x)
    | lift_lets
    | refine Kept.snd (by with_reducible assumption) ?_
    | refine KeptO.use (by with_reducible assumption) ?_
    | refine KeptP.use (by with_reducible assumption) ?_
    | split

/-! Machine/Flags.lean -/

theorem State.putSat_kept (h : Kept s t) (x : Iss) (rd : Gr) (r : Word64 × Bool) : Kept s (State.putSat t x rd r) := by
  unfold State.putSat
  repeat' with_reducible first
    | assumption | refine State.ite_kept (fun _ => ?_) (fun _ => ?_) | apply State.modEng_kept

/-! Machine/Fix.lean -/

theorem State.fix3_kept (h : Kept s t) (x : Iss) (rd : Gr) (ra : Gr) (rb : Gr) (f : Word64 → Word64 → Word64 × Bool) : Kept s (State.fix3 t x rd ra rb f) := by
  unfold State.fix3
  repeat' first
    | with_reducible first | assumption | apply State.issue_kept | apply State.putSat_kept
    | intro _

theorem State.fixI_kept (h : Kept s t) (x : Iss) (rd : Gr) (ra : Gr) (ty : ImmTy) (imm : Word) (f : Word64 → Word64 → Word64 × Bool) : Kept s (State.fixI t x rd ra ty imm f) := by
  unfold State.fixI
  repeat' first
    | with_reducible first | assumption | apply State.issue_kept | apply State.putSat_kept
    | intro _

theorem State.fixAcc_kept (h : Kept s t) (x : Iss) (rd : Gr) (ra : Gr) (rb : Gr) (f : Word64 → Word64 → Word64 → Word64 × Bool) : Kept s (State.fixAcc t x rd ra rb f) := by
  unfold State.fixAcc
  repeat' first
    | with_reducible first | assumption | apply State.issue_kept | apply State.putSat_kept
    | intro _

theorem State.fix2_kept (h : Kept s t) (x : Iss) (rd : Gr) (ra : Gr) (f : Word64 → Word64 × Bool) : Kept s (State.fix2 t x rd ra f) := by
  unfold State.fix2
  repeat' first
    | with_reducible first | assumption | apply State.issue_kept | apply State.putSat_kept
    | intro _

theorem State.fix12_kept (h : Kept s t) (x : Iss) (rd : Gr) (ra : Gr) (f : Word64 → Word64) : Kept s (State.fix12 t x rd ra f) := by
  unfold State.fix12
  repeat' first
    | with_reducible first | assumption | apply State.issue_kept | apply State.takeTag_kept
    | intro _

/-! Machine/Fabric.lean -/

theorem State.post_kept (h : Kept s t) (tick : Nat) (glob : Bool) (line : Nat) (v : Bool) : Kept s (State.post t tick glob line v) := by
  unfold State.post
  repeat' with_reducible first
    | assumption | refine State.ite_kept (fun _ => ?_) (fun _ => ?_) | apply State.modDec_kept

theorem State.engRead_kept (h : Kept s t) (e : Nat) (v : Word64) (current : Bool) : Kept s (State.engRead t e v current).2 := by
  unfold State.engRead
  repeat' first
    | with_reducible first | assumption | refine State.ite_kept (fun _ => ?_) (fun _ => ?_) | apply State.iff_kept | apply State.modEng_kept | apply State.timingFault_kept
    | intro _
    | refine Kept.snd (by with_reducible assumption) ?_
    | refine KeptO.use (by with_reducible assumption) ?_
    | refine KeptP.use (by with_reducible assumption) ?_
    | split

theorem State.wakeWaits_kept (h : Kept s t)  : Kept s (State.wakeWaits t) := by
  unfold State.wakeWaits
  repeat' first
    | with_reducible first | assumption | apply State.each_kept | apply State.engRead_kept | apply State.modEng_kept | apply State.setReg_kept
    | (intro x; refine (show Kept s x → _ from ?_) ?_; (on_goal 1 => clear_value x; intro hx); (on_goal 2 => subst x))
    | (intro x; clear_value x)
    | lift_lets
    | intro _
    | refine Kept.snd (by with_reducible assumption) ?_
    | refine KeptO.use (by with_reducible assumption) ?_
    | refine KeptP.use (by with_reducible assumption) ?_
    | split

/-! Machine/Hbm.lean -/

theorem State.hbmCe_kept (h : Kept s t) (k : Nat) : Kept s (State.hbmCe t k) := by
  unfold State.hbmCe
  repeat' first
    | with_reducible first | assumption | apply State.count_kept | apply State.iff_kept | apply State.put_kept | apply State.raise_kept
    | (intro x; refine (show Kept s x → _ from ?_) ?_; (on_goal 1 => clear_value x; intro hx); (on_goal 2 => subst x))
    | (intro x; clear_value x)
    | lift_lets
    | intro _
    | dsimp only
    | with_reducible apply Kept.mk

theorem State.hbmUe_kept (h : Kept s t) (a : Nat) : Kept s (State.hbmUe t a) := by
  unfold State.hbmUe
  repeat' first
    | with_reducible first | assumption | apply State.count_kept | apply State.iff_kept | apply State.put_kept | apply State.wr64_kept
    | (intro x; refine (show Kept s x → _ from ?_) ?_; (on_goal 1 => clear_value x; intro hx); (on_goal 2 => subst x))
    | (intro x; clear_value x)
    | lift_lets
    | intro _

theorem State.hbmSeen_kept (h : Kept s t) (a : Nat) (e : HbmEcc) : Kept s (State.hbmSeen t a e) := by
  unfold State.hbmSeen
  repeat' first
    | with_reducible first | assumption | apply State.hbmCe_kept | apply State.hbmUe_kept
    | refine Kept.snd (by with_reducible assumption) ?_
    | refine KeptO.use (by with_reducible assumption) ?_
    | refine KeptP.use (by with_reducible assumption) ?_
    | split

theorem State.hbmRead_kept (h : Kept s t) (a : Nat) (e : HbmEcc) : Kept s (State.hbmRead t a e).2 := by
  unfold State.hbmRead
  repeat' first
    | with_reducible first | assumption | apply State.free_kept | apply State.hbmPutW_kept | apply State.hbmSeen_kept
    | (intro x; refine (show Kept s x → _ from ?_) ?_; (on_goal 1 => clear_value x; intro hx); (on_goal 2 => subst x))
    | (intro x; clear_value x)
    | lift_lets
    | refine Kept.snd (by with_reducible assumption) ?_
    | refine KeptO.use (by with_reducible assumption) ?_
    | refine KeptP.use (by with_reducible assumption) ?_
    | split

theorem opPatrolScrub_kept (h : Kept s t) (k : Fin 4) (e : HbmEcc) : Kept s (opPatrolScrub k e t) := by
  unfold opPatrolScrub
  repeat' first
    | with_reducible first | assumption | refine State.ite_kept (fun _ => ?_) (fun _ => ?_) | apply State.hbmRead_kept | apply State.iff_kept | apply State.raise_kept | apply State.wr_kept
    | (intro x; refine (show Kept s x → _ from ?_) ?_; (on_goal 1 => clear_value x; intro hx); (on_goal 2 => subst x))
    | (intro x; clear_value x)
    | lift_lets
    | intro _

theorem State.hbmFill_kept (h : Kept s t) (k : Nat) : Kept s (State.hbmFill t k) := by
  unfold State.hbmFill
  repeat' first
    | with_reducible first | assumption | apply State.hbmZero_kept | apply State.put_kept
    | dsimp only
    | with_reducible apply Kept.mk

theorem opHbmFillDone_kept (h : Kept s t) (k : Fin 4) : Kept s (opHbmFillDone k t) := by
  unfold opHbmFillDone
  repeat' first
    | with_reducible first | assumption | refine State.ite_kept (fun _ => ?_) (fun _ => ?_) | apply State.put_kept | apply State.wr_kept
    | dsimp only
    | with_reducible apply Kept.mk

theorem opInit_kept (h : Kept s t) (p : Path) (which : BitVec 4) : Kept s (opInit p which t) := by
  unfold opInit
  repeat' first
    | with_reducible first | assumption | refine State.ite_kept (fun _ => ?_) (fun _ => ?_) | apply State.cfgErr_kept | apply State.each_kept | apply State.hbmFill_kept | apply State.idle_kept
    | intro _

/-! Machine/TimeGroup.lean -/

theorem State.beginGap_kept (h : Kept s t) (e : Nat) : Kept s (State.beginGap t e) := by
  unfold State.beginGap
  repeat' with_reducible first
    | assumption | apply State.count_kept | apply State.modEng_kept

theorem opAt_kept (h : Kept s t) (e : Nat) (pair : Bool) (t_ : BitVec 48) : Kept s (opAt e pair t_ t) := by
  unfold opAt
  repeat' with_reducible first
    | assumption | refine State.ite_kept (fun _ => ?_) (fun _ => ?_) | apply State.beginGap_kept | apply State.judgeAt_kept | apply State.modEng_kept

theorem opAtLaunch_kept (h : Kept s t) (e : Nat) : Kept s (opAtLaunch e t) := by
  unfold opAtLaunch
  repeat' first
    | with_reducible first | assumption | apply State.judgeAt_kept | apply State.toMoment_kept
    | (intro x; refine (show Kept s x → _ from ?_) ?_; (on_goal 1 => clear_value x; intro hx); (on_goal 2 => subst x))
    | (intro x; clear_value x)
    | lift_lets
    | refine Kept.snd (by with_reducible assumption) ?_
    | refine KeptO.use (by with_reducible assumption) ?_
    | refine KeptP.use (by with_reducible assumption) ?_
    | split
    | dsimp only

theorem State.openSection_kept (h : Kept s t) (e : Nat) (ts : BitVec 6) : Kept s (State.openSection t e ts) := by
  unfold State.openSection
  repeat' first
    | with_reducible first | assumption | refine State.ite_kept (fun _ => ?_) (fun _ => ?_) | apply State.iff_kept | apply State.modEng_kept | apply State.siteRes_kept | apply KeptO.getD
    | (intro x; refine (show Kept s x → _ from ?_) ?_; (on_goal 1 => clear_value x; intro hx); (on_goal 2 => subst x))
    | (intro x; clear_value x)
    | lift_lets
    | intro _

theorem opTbegin_kept (h : Kept s t) (e : Nat) (ts : BitVec 6) : Kept s (opTbegin e ts t) := by
  unfold opTbegin
  repeat' first
    | with_reducible first | assumption | refine State.ite_kept (fun _ => ?_) (fun _ => ?_) | apply State.beginGap_kept | apply State.iff_kept | apply State.modEng_kept | apply State.openSection_kept
    | (intro x; refine (show Kept s x → _ from ?_) ?_; (on_goal 1 => clear_value x; intro hx); (on_goal 2 => subst x))
    | (intro x; clear_value x)
    | lift_lets
    | intro _

theorem opTend_kept (h : Kept s t) (e : Nat) : Kept s (opTend e t) := by
  unfold opTend
  repeat' with_reducible first
    | assumption | apply State.advanceTo_kept | apply State.boundary_kept | apply State.modEng_kept

theorem State.postNow_kept (h : Kept s t) (x : Iss) (rd : Gr) (glob : Bool) (line : Nat) (v : Bool) : Kept s (State.postNow t x rd glob line v) := by
  unfold State.postNow
  repeat' with_reducible first
    | assumption | apply State.post_kept | apply State.setReg_kept

theorem opRdv_kept (h : Kept s t) (x : Iss) (rd : Gr) (ra : Gr) (current : Bool) : Kept s (opRdv x rd ra current t) := by
  unfold opRdv
  repeat' with_reducible first
    | assumption | refine State.ite_kept (fun _ => ?_) (fun _ => ?_) | apply State.engRead_kept | apply State.illegal_kept | apply State.setReg_kept

theorem opWaitv_kept (h : Kept s t) (x : Iss) (rd : Gr) (ra : Gr) : Kept s (opWaitv x rd ra t) := by
  unfold opWaitv
  repeat' with_reducible first
    | assumption | refine State.ite_kept (fun _ => ?_) (fun _ => ?_) | apply State.modEng_kept | apply opRdv_kept

theorem opBv_kept (h : Kept s t) (x : Iss) (ra : Gr) (val : Bool) (current : Bool) (off : Word) : Kept s (opBv x ra val current off t) := by
  unfold opBv
  repeat' first
    | with_reducible first | assumption | refine State.ite_kept (fun _ => ?_) (fun _ => ?_) | apply State.branch_kept | apply State.engRead_kept | apply State.iff_kept | apply State.illegal_kept
    | (intro x; refine (show Kept s x → _ from ?_) ?_; (on_goal 1 => clear_value x; intro hx); (on_goal 2 => subst x))
    | (intro x; clear_value x)
    | lift_lets
    | intro _

theorem opThrottleGapEnd_kept (h : Kept s t) (e : Nat) : Kept s (opThrottleGapEnd e t) := by
  unfold opThrottleGapEnd
  repeat' first
    | with_reducible first | assumption | apply State.advanceTo_kept | apply State.modEng_kept
    | intro _
    | refine Kept.snd (by with_reducible assumption) ?_
    | refine KeptO.use (by with_reducible assumption) ?_
    | refine KeptP.use (by with_reducible assumption) ?_
    | split

/-! Machine/Mem.lean -/

theorem opLd_kept (h : Kept s t) (x : Iss) (rd : Gr) (sum : Word64) (ecc : Ecc) : Kept s (opLd x rd sum ecc t) := by
  unfold opLd
  repeat' first
    | with_reducible first | assumption | refine State.ite_kept (fun _ => ?_) (fun _ => ?_) | apply State.engFault_kept | apply State.iff_kept | apply State.mchk_kept | apply State.takeTag_kept
    | (intro x; refine (show Kept s x → _ from ?_) ?_; (on_goal 1 => clear_value x; intro hx); (on_goal 2 => subst x))
    | (intro x; clear_value x)
    | lift_lets
    | intro _

theorem opLdh_kept (h : Kept s t) (x : Iss) (rd : Gr) (a : Nat) (ecc : HbmEcc) : Kept s (opLdh x rd a ecc t) := by
  unfold opLdh
  repeat' first
    | with_reducible first | assumption | refine State.ite_kept (fun _ => ?_) (fun _ => ?_) | apply State.engFault_kept | apply State.hbmRead_kept | apply State.modEng_kept | apply State.takeTag_kept | apply KeptO.getD
    | (intro x; refine (show Kept s x → _ from ?_) ?_; (on_goal 1 => clear_value x; intro hx); (on_goal 2 => subst x))
    | (intro x; clear_value x)
    | lift_lets
    | intro _
    | refine Kept.snd (by with_reducible assumption) ?_
    | refine KeptO.use (by with_reducible assumption) ?_
    | refine KeptP.use (by with_reducible assumption) ?_
    | split

theorem opSth_kept (h : Kept s t) (x : Iss) (rd : Gr) (a : Nat) (v : Word64) : Kept s (opSth x rd a v t) := by
  unfold opSth
  repeat' first
    | with_reducible first | assumption | refine State.ite_kept (fun _ => ?_) (fun _ => ?_) | apply State.engFault_kept | apply State.hbmPutW_kept | apply State.modEng_kept | apply State.setReg_kept | apply State.takeTag_kept
    | (intro x; refine (show Kept s x → _ from ?_) ?_; (on_goal 1 => clear_value x; intro hx); (on_goal 2 => subst x))
    | (intro x; clear_value x)
    | lift_lets
    | intro _
    | refine Kept.snd (by with_reducible assumption) ?_
    | refine KeptO.use (by with_reducible assumption) ?_
    | refine KeptP.use (by with_reducible assumption) ?_
    | split

theorem opHbmStoreAck_kept (h : Kept s t) (e : Nat) (tag : Nat) : Kept s (opHbmStoreAck e tag t) := by
  unfold opHbmStoreAck
  repeat' first
    | with_reducible first | assumption | apply State.modEng_kept
    | intro _
    | refine Kept.snd (by with_reducible assumption) ?_
    | refine KeptO.use (by with_reducible assumption) ?_
    | refine KeptP.use (by with_reducible assumption) ?_
    | split

/-! Machine/Sys.lean -/

theorem opSig_kept (h : Kept s t) (e : Nat) (sync : Bool) (code : BitVec 16) : Kept s (opSig e sync code t) := by
  unfold opSig
  repeat' with_reducible first
    | assumption | refine State.ite_kept (fun _ => ?_) (fun _ => ?_) | apply State.count_kept | apply State.engFault_kept | apply State.engIrq_kept | apply State.setEng_kept

/-! Machine/Vec.lean -/

theorem State.vecStart_kept (h : Kept s t) (n : Nat) (q : VisRun) (ecc : Ecc) : Kept s (State.vecStart t n q ecc) := by
  unfold State.vecStart
  repeat' first
    | with_reducible first | assumption | refine State.ite_kept (fun _ => ?_) (fun _ => ?_) | apply State.engFault_kept | apply State.iff_kept | apply State.illegal_kept | apply State.mchk_kept | apply State.vecGo_kept
    | intro _
    | refine Kept.snd (by with_reducible assumption) ?_
    | refine KeptO.use (by with_reducible assumption) ?_
    | refine KeptP.use (by with_reducible assumption) ?_
    | split

theorem opVfail_kept (h : Kept s t) (e : Nat) (site : Fin 4) (any : Bool) (clr : Bool) (off : Word) : Kept s (opVfail e site any clr off t) := by
  unfold opVfail
  repeat' first
    | with_reducible first | assumption | apply State.branch_kept | apply State.iff_kept | apply State.setPe_kept
    | (intro x; refine (show Kept s x → _ from ?_) ?_; (on_goal 1 => clear_value x; intro hx); (on_goal 2 => subst x))
    | (intro x; clear_value x)
    | lift_lets
    | intro _

theorem opVstv_kept (h : Kept s t) (e : Nat) (v : Word64) : Kept s (opVstv e v t) := by
  unfold opVstv
  repeat' with_reducible first
    | assumption | refine State.ite_kept (fun _ => ?_) (fun _ => ?_) | apply State.illegal_kept | apply State.wr64_kept

/-! Machine/Apg.lean -/

theorem State.setPair_kept (h : Kept s t) (e : Nat) (k : Fin 4) (pd : Fin 8) (r : Nat × Nat × Bool) : Kept s (State.setPair t e k pd r) := by
  unfold State.setPair
  repeat' with_reducible first
    | assumption | apply State.modEng_kept

/-! Machine/Levels.lean -/

theorem State.siRestart_kept (h : Kept s t) (n : Nat) (l : Nat) : Kept s (State.siRestart t n l) := by
  unfold State.siRestart
  repeat' with_reducible first
    | assumption | refine State.ite_kept (fun _ => ?_) (fun _ => ?_) | apply State.modPe_kept

theorem State.ppmuSettles_kept (h : Kept s t) (n : Nat) (l : Nat) : Kept s (State.ppmuSettles t n l) := by
  unfold State.ppmuSettles
  repeat' with_reducible first
    | assumption | apply State.setSettle_kept

theorem State.lvlWrite_kept (h : Kept s t) (n : Nat) (l : Nat) (d : Nat) (v : BitVec 16) : Kept s (State.lvlWrite t n l d v) := by
  unfold State.lvlWrite
  repeat' first
    | with_reducible first | assumption | apply State.iff_kept | apply State.modLane_kept | apply State.ppmuSettles_kept | apply State.siRestart_kept | apply State.wr_kept
    | (intro x; refine (show Kept s x → _ from ?_) ?_; (on_goal 1 => clear_value x; intro hx); (on_goal 2 => subst x))
    | (intro x; clear_value x)
    | lift_lets
    | intro _

theorem State.rangeSel_kept (h : Kept s t) (n : Nat) (l : Nat) (b : Bool) (refuse : State → State) (_ : ∀ u, Kept s u → Kept s (refuse u)) : Kept s (State.rangeSel t n l b refuse) := by
  unfold State.rangeSel
  repeat' first
    | with_reducible first | assumption | refine State.ite_kept (fun _ => ?_) (fun _ => ?_) | apply State.modLane_kept | apply State.put_kept | apply State.siRestart_kept
    | intro _
    | dsimp only
    | solve_by_elim

theorem State.laneWrite_kept (h : Kept s t) (p : Path) (n l : Nat) (v : Word) : Kept s (t.laneWrite p n l v) := by
  unfold State.laneWrite
  exact State.ite_kept (fun _ => State.cfgErr_kept h p) (fun _ => State.put_kept (State.rangeSel_kept h _ _ _ _ (fun _ k => k)) ..)

theorem State.ppmuSet_kept (h : Kept s t) (n : Nat) (l : Nat) (mode : Nat) (range : Nat) : Kept s (State.ppmuSet t n l mode range) := by
  unfold State.ppmuSet
  repeat' first
    | with_reducible first | assumption | refine State.ite_kept (fun _ => ?_) (fun _ => ?_) | apply State.iff_kept | apply State.modLane_kept | apply State.ppmuSettles_kept | apply State.put_kept | apply State.wrf_kept
    | (intro x; refine (show Kept s x → _ from ?_) ?_; (on_goal 1 => clear_value x; intro hx); (on_goal 2 => subst x))
    | (intro x; clear_value x)
    | lift_lets
    | intro _

theorem State.rangeStep_kept (h : Kept s t) (n : Nat) (l : Nat) (step : Nat) (ticks : Nat) (last : Bool) : Kept s (State.rangeStep t n l step ticks last) := by
  unfold State.rangeStep
  repeat' first
    | with_reducible first | assumption | refine State.ite_kept (fun _ => ?_) (fun _ => ?_) | apply State.advanceTo_kept | apply State.iff_kept | apply State.modLane_kept | apply State.put_kept
    | (intro x; refine (show Kept s x → _ from ?_) ?_; (on_goal 1 => clear_value x; intro hx); (on_goal 2 => subst x))
    | (intro x; clear_value x)
    | lift_lets
    | intro _

theorem opSupervisionCheck_kept (h : Kept s t) (n : Nat) (l : Nat) (d : Nat) (m1 : BitVec 16) (m2 : BitVec 16) : Kept s (opSupervisionCheck n l d m1 m2 t) := by
  unfold opSupervisionCheck
  repeat' with_reducible first
    | assumption | refine State.ite_kept (fun _ => ?_) (fun _ => ?_) | apply State.count_kept | apply State.put_kept | apply State.raise_kept | apply State.wr_kept | apply State.wrf_kept

theorem opPpmuWrite_kept (h : Kept s t) (p : Path) (n : Nat) (l : Nat) (v : Word) : Kept s (opPpmuWrite p n l v t) := by
  unfold opPpmuWrite
  repeat' with_reducible first
    | assumption | refine State.ite_kept (fun _ => ?_) (fun _ => ?_) | apply State.cfgErr_kept | apply State.ppmuSet_kept

theorem opSettlingEnd_kept (h : Kept s t) (k : Nat) : Kept s (opSettlingEnd k t) := by
  unfold opSettlingEnd
  repeat' with_reducible first
    | assumption | refine State.ite_kept (fun _ => ?_) (fun _ => ?_) | apply State.advanceTo_kept | apply State.setSettle_kept

theorem opClampChange_kept (h : Kept s t) (src : Source) (on : Bool) : Kept s (opClampChange src on t) := by
  unfold opClampChange
  repeat' first
    | with_reducible first | assumption | apply State.put_kept
    | refine Kept.snd (by with_reducible assumption) ?_
    | refine KeptO.use (by with_reducible assumption) ?_
    | refine KeptP.use (by with_reducible assumption) ?_
    | split

/-! Machine/Smu.lean -/

theorem State.smuFault_kept (h : Kept s t) (n : Nat) (lvl : Nat) : Kept s (State.smuFault t n lvl) := by
  unfold State.smuFault
  repeat' with_reducible first
    | assumption | apply State.raise_kept

theorem State.smuOff_kept (h : Kept s t) (n : Nat) : Kept s (State.smuOff t n) := by
  unfold State.smuOff
  repeat' with_reducible first
    | assumption | apply State.put_kept | apply State.setSmu_kept | apply State.wrf_kept

theorem State.smuCommand_kept (h : Kept s t) (n : Nat) (mode : Nat) (range : Nat) (force : Int) : Kept s (State.smuCommand t n mode range force) := by
  unfold State.smuCommand
  repeat' with_reducible first
    | assumption | refine State.ite_kept (fun _ => ?_) (fun _ => ?_) | apply State.put_kept | apply State.setSettle_kept | apply State.setSmu_kept | apply State.smuFault_kept | apply State.smuOff_kept | apply State.wrf_kept

theorem opSmuCfgWrite_kept (h : Kept s t) (p : Path) (n : Nat) (v : Word) : Kept s (opSmuCfgWrite p n v t) := by
  unfold opSmuCfgWrite
  repeat' first
    | with_reducible first | assumption | refine State.ite_kept (fun _ => ?_) (fun _ => ?_) | apply State.cfgErr_kept | apply State.iff_kept | apply State.put_kept | apply State.smuCommand_kept
    | (intro x; refine (show Kept s x → _ from ?_) ?_; (on_goal 1 => clear_value x; intro hx); (on_goal 2 => subst x))
    | (intro x; clear_value x)
    | lift_lets
    | intro _

theorem opSmuClampWrite_kept (h : Kept s t) (p : Path) (n : Nat) (v : Word) : Kept s (opSmuClampWrite p n v t) := by
  unfold opSmuClampWrite
  repeat' first
    | with_reducible first | assumption | refine State.ite_kept (fun _ => ?_) (fun _ => ?_) | apply State.cfgErr_kept | apply State.iff_kept | apply State.put_kept | apply State.smuFault_kept | apply State.wr_kept | apply State.wrf_kept
    | (intro x; refine (show Kept s x → _ from ?_) ?_; (on_goal 1 => clear_value x; intro hx); (on_goal 2 => subst x))
    | (intro x; clear_value x)
    | lift_lets
    | intro _

theorem State.smuRamp_kept (h : Kept s t) (n : Nat) : Kept s (State.smuRamp t n) := by
  unfold State.smuRamp
  repeat' with_reducible first
    | assumption | refine State.ite_kept (fun _ => ?_) (fun _ => ?_) | apply State.put_kept | apply State.setSmu_kept

theorem opSmuRampDone_kept (h : Kept s t) (n : Nat) : Kept s (opSmuRampDone n t) := by
  unfold opSmuRampDone
  repeat' with_reducible first
    | assumption | refine State.ite_kept (fun _ => ?_) (fun _ => ?_) | apply State.advanceTo_kept | apply State.smuOff_kept

theorem opSenseFault_kept (h : Kept s t) (n : Nat) : Kept s (opSenseFault n t) := by
  unfold opSenseFault
  repeat' with_reducible first
    | assumption | refine State.ite_kept (fun _ => ?_) (fun _ => ?_) | apply State.put_kept | apply State.smuFault_kept | apply State.smuRamp_kept

/-! Machine/Madc.lean -/

theorem State.madcWait_kept (h : Kept s t) (n : Nat) (w : MWait) : Kept s (State.madcWait t n w) := by
  unfold State.madcWait
  repeat' with_reducible first
    | assumption | apply State.calDrop_kept | apply State.setMadc_kept

theorem State.madcStart_kept (h : Kept s t) (n : Nat) (e : Fin 32) (cls : Nat) (tag : Option Nat) : Kept s (State.madcStart t n e cls tag) := by
  unfold State.madcStart
  repeat' with_reducible first
    | assumption | refine State.ite_kept (fun _ => ?_) (fun _ => ?_) | apply State.setMadc_kept

theorem State.madcStartAll_kept (h : Kept s t) (n : Nat) (code : Nat) : Kept s (State.madcStartAll t n code) := by
  unfold State.madcStartAll
  repeat' first
    | with_reducible first | assumption | refine State.ite_kept (fun _ => ?_) (fun _ => ?_) | apply State.each_kept | apply State.madcStart_kept
    | intro _

theorem State.madcTag_kept (h : Kept s t) (n : Nat) (r : MReq) (v : Word64) : Kept s (State.madcTag t n r v) := by
  unfold State.madcTag
  repeat' first
    | with_reducible first | assumption | apply State.modEng_kept
    | intro _
    | refine Kept.snd (by with_reducible assumption) ?_
    | refine KeptO.use (by with_reducible assumption) ?_
    | refine KeptP.use (by with_reducible assumption) ?_
    | split

theorem opRun_kept (h : Kept s t) (n : Nat) (on : Bool) : Kept s (opRun n on t) := by
  unfold opRun
  repeat' first
    | with_reducible first | assumption | apply State.iff_kept | apply State.put_kept | apply State.setMadc_kept
    | (intro x; refine (show Kept s x → _ from ?_) ?_; (on_goal 1 => clear_value x; intro hx); (on_goal 2 => subst x))
    | (intro x; clear_value x)
    | lift_lets
    | intro _

theorem opKick_kept (h : Kept s t) (n : Nat) (e : Fin 32) : Kept s (opKick n e t) := by
  unfold opKick
  repeat' with_reducible first
    | assumption | apply State.madcStart_kept | apply State.wrf_kept

theorem opMadcTimerEvent_kept (h : Kept s t) (n : Nat) : Kept s (opMadcTimerEvent n t) := by
  unfold opMadcTimerEvent
  repeat' with_reducible first
    | assumption | refine State.ite_kept (fun _ => ?_) (fun _ => ?_) | apply State.advanceTo_kept | apply State.madcStartAll_kept | apply State.setMadc_kept

theorem opMadcEntryDue_kept (h : Kept s t) (n : Nat) (e : Nat) : Kept s (opMadcEntryDue n e t) := by
  unfold opMadcEntryDue
  repeat' first
    | with_reducible first | assumption | refine State.ite_kept (fun _ => ?_) (fun _ => ?_) | apply State.advanceTo_kept | apply State.count_kept | apply State.madcTag_kept | apply State.madcWait_kept | apply State.setMadc_kept
    | (intro x; refine (show Kept s x → _ from ?_) ?_; (on_goal 1 => clear_value x; intro hx); (on_goal 2 => subst x))
    | (intro x; clear_value x)
    | lift_lets
    | intro _
    | refine Kept.snd (by with_reducible assumption) ?_
    | refine KeptO.use (by with_reducible assumption) ?_
    | refine KeptP.use (by with_reducible assumption) ?_
    | split

theorem opMadcConversionStart_kept (h : Kept s t) (n : Nat) (settles : Bool) : Kept s (opMadcConversionStart n settles t) := by
  unfold opMadcConversionStart
  repeat' first
    | with_reducible first | assumption | refine State.ite_kept (fun _ => ?_) (fun _ => ?_) | apply State.count_kept | apply State.iff_kept | apply State.put_kept | apply State.raise_kept | apply State.setMadc_kept
    | (intro x; refine (show Kept s x → _ from ?_) ?_; (on_goal 1 => clear_value x; intro hx); (on_goal 2 => subst x))
    | (intro x; clear_value x)
    | lift_lets
    | intro _
    | refine Kept.snd (by with_reducible assumption) ?_
    | refine KeptO.use (by with_reducible assumption) ?_
    | refine KeptP.use (by with_reducible assumption) ?_
    | split

theorem opMadcResult_kept (h : Kept s t) (n : Nat) (samples : List (BitVec 18)) (clamped : Bool) (openWire : Bool) : Kept s (opMadcResult n samples clamped openWire t) := by
  unfold opMadcResult
  repeat' first
    | with_reducible first | assumption | refine State.ite_kept (fun _ => ?_) (fun _ => ?_) | apply State.advanceTo_kept | apply State.madcTag_kept | apply State.setMadc_kept | apply State.wr_kept | apply KeptO.getD | refine foldl_kept ?_ ?_
    | (intro x; refine (show Kept s x → _ from ?_) ?_; (on_goal 1 => clear_value x; intro hx); (on_goal 2 => subst x))
    | (intro x; clear_value x)
    | lift_lets
    | intro _
    | refine Kept.snd (by with_reducible assumption) ?_
    | refine KeptO.use (by with_reducible assumption) ?_
    | refine KeptP.use (by with_reducible assumption) ?_
    | split
    | dsimp only

theorem opMseqCommit_kept (h : Kept s t) (p : Path) (n : Nat) (e : Nat) (hi : Word) : Kept s (opMseqCommit p n e hi t) := by
  unfold opMseqCommit
  repeat' with_reducible first
    | assumption | refine State.ite_kept (fun _ => ?_) (fun _ => ?_) | apply State.cfgErr_kept | apply State.holdLo_kept | apply State.put_kept | apply State.wr64_kept

theorem State.answer_kept (h : Kept s t) (p : Path) (v : Word) : Kept s (State.answer t p v) := by
  unfold State.answer
  repeat' with_reducible first
    | assumption | apply State.emit_kept

theorem State.hostRead_kept (h : Kept s t) (p : Path) (a : Nat) (f : State → Word × State)
    (k : ∀ u, Kept s u → Kept s (f u).2) : Kept s (t.hostRead p a f) := by
  have hr := State.reach_kept h p a false
  unfold State.hostRead
  split
  · exact h
  · generalize t.reach p a false = r at hr ⊢
    obtain ⟨v, u⟩ := r
    cases v
    · exact State.answer_kept (k u hr) p _
    · exact State.answer_kept hr p _

theorem madcDataVal_kept (h : Kept s t) (n : Nat) : Kept s (madcDataVal n t).2 := by
  unfold madcDataVal
  repeat' with_reducible first
    | assumption | apply State.wr_kept

theorem madcResVal_kept (h : Kept s t) (p : Path) (n : Nat) (e : Nat) : Kept s (madcResVal p n e t).2 := by
  unfold madcResVal
  repeat' with_reducible first
    | assumption | apply State.put_kept | apply State.setLatch_kept

theorem State.madcOff_kept (h : Kept s t) (n : Nat) : Kept s (State.madcOff t n) := by
  unfold State.madcOff
  repeat' first
    | with_reducible first | assumption | apply State.each_kept | apply State.madcTag_kept | apply State.put_kept | apply State.setMadc_kept | apply KeptO.getD
    | (intro x; refine (show Kept s x → _ from ?_) ?_; (on_goal 1 => clear_value x; intro hx); (on_goal 2 => subst x))
    | (intro x; clear_value x)
    | lift_lets
    | intro _

/-! Machine/Tdc.lean -/

theorem opTdcStart_kept (h : Kept s t) (k : Nat) (sub : Nat) : Kept s (opTdcStart k sub t) := by
  unfold opTdcStart
  repeat' with_reducible first
    | assumption | refine State.ite_kept (fun _ => ?_) (fun _ => ?_) | apply State.setTdc_kept | apply State.toMoment_kept

theorem State.tdcEdge_kept (h : Kept s t) (k : Nat) (sub : Nat) : Kept s (State.tdcEdge t k sub) := by
  unfold State.tdcEdge
  repeat' with_reducible first
    | assumption | apply State.setTdc_kept

theorem opTdcStop_kept (h : Kept s t) (k : Nat) (sub : Nat) : Kept s (opTdcStop k sub t) := by
  unfold opTdcStop
  repeat' with_reducible first
    | assumption | refine State.ite_kept (fun _ => ?_) (fun _ => ?_) | apply State.tdcEdge_kept | apply State.toMoment_kept

theorem opTdcTimeout_kept (h : Kept s t) (k : Nat) : Kept s (opTdcTimeout k t) := by
  unfold opTdcTimeout
  repeat' with_reducible first
    | assumption | refine State.ite_kept (fun _ => ?_) (fun _ => ?_) | apply State.advanceTo_kept | apply State.setTdc_kept

theorem opTdcResultWrite_kept (h : Kept s t) (n : Nat) (t_ : Nat) : Kept s (opTdcResultWrite n t_ t) := by
  unfold opTdcResultWrite
  repeat' first
    | with_reducible first | assumption | apply State.advanceTo_kept | apply State.idle_kept | apply State.iff_kept | apply State.madcStartAll_kept | apply State.modEng_kept | apply State.setTdc_kept
    | (intro x; refine (show Kept s x → _ from ?_) ?_; (on_goal 1 => clear_value x; intro hx); (on_goal 2 => subst x))
    | (intro x; clear_value x)
    | lift_lets
    | intro _
    | refine Kept.snd (by with_reducible assumption) ?_
    | refine KeptO.use (by with_reducible assumption) ?_
    | refine KeptP.use (by with_reducible assumption) ?_
    | split
    | dsimp only

theorem tdcResVal_kept (h : Kept s t) (p : Path) (k : Nat) : Kept s (tdcResVal p k t).2 := by
  unfold tdcResVal
  repeat' first
    | with_reducible first | assumption | refine State.ite_kept (fun _ => ?_) (fun _ => ?_) | apply State.idle_kept | apply State.setLatch_kept | apply State.setTdc_kept
    | (intro x; refine (show Kept s x → _ from ?_) ?_; (on_goal 1 => clear_value x; intro hx); (on_goal 2 => subst x))
    | (intro x; clear_value x)
    | lift_lets
    | split

/-! Machine/Meas.lean -/

theorem State.measure_kept (h : Kept s t) (x : Iss) (rd : Gr) (f : Nat → MReq) : Kept s (State.measure t x rd f) := by
  unfold State.measure
  repeat' with_reducible first
    | assumption | refine State.ite_kept (fun _ => ?_) (fun _ => ?_) | apply State.madcWait_kept | apply State.takeTag_kept

theorem opSmuc_kept (h : Kept s t) (e : Nat) (code : Word64) (mode : Nat) (range : Nat) : Kept s (opSmuc e code mode range t) := by
  unfold opSmuc
  repeat' with_reducible first
    | assumption | refine State.ite_kept (fun _ => ?_) (fun _ => ?_) | apply State.engFault_kept | apply State.smuCommand_kept | apply State.smuFault_kept

theorem opMadc_kept (h : Kept s t) (x : Iss) (rd : Gr) (entry : Fin 32) : Kept s (opMadc x rd entry t) := by
  unfold opMadc
  repeat' with_reducible first
    | assumption | refine State.ite_kept (fun _ => ?_) (fun _ => ?_) | apply State.madcStart_kept | apply State.takeTag_kept

theorem opTdcr_kept (h : Kept s t) (x : Iss) (rd : Gr) (t_ : Fin 2) : Kept s (opTdcr x rd t_ t) := by
  unfold opTdcr
  repeat' first
    | with_reducible first | assumption | apply State.engFault_kept | apply State.idle_kept | apply State.setTdc_kept | apply State.takeTag_kept | apply KeptO.getD
    | refine Kept.snd (by with_reducible assumption) ?_
    | refine KeptO.use (by with_reducible assumption) ?_
    | refine KeptP.use (by with_reducible assumption) ?_
    | split
    | dsimp only

end

end Sys2Proof.Machine
end

