-- ==== Sys2Proof/Laws/KeptUnits.lean ====
section
/-! SUPPORT. That the operations of the other commands keep the canonical forms, one lemma per operation. -/

namespace Sys2Proof.Machine

section
variable {s t : State}

/-! Machine/Tx.lean -/

theorem State.txFault_kept (h : Kept s t) (n : Nat) (cls : Nat) (lvl : Nat) : Kept s (State.txFault t n cls lvl) := by
  unfold State.txFault
  repeat' with_reducible first
    | assumption | apply State.raise_kept

theorem State.badSeg_kept (h : Kept s t) (n : Nat) (pos : Nat) (cls : Nat) (lvl : Nat) : Kept s (State.badSeg t n pos cls lvl) := by
  unfold State.badSeg
  repeat' with_reducible first
    | assumption | apply State.idle_kept | apply State.put_kept | apply State.txFault_kept | apply State.txHalt_kept

theorem State.loadList_kept (h : Kept s t) (n : Nat) (e : List Word64) (ecc : Ecc) : Kept s (State.loadList t n e ecc) := by
  unfold State.loadList
  repeat' first
    | with_reducible first | assumption | refine State.ite_kept (fun _ => ?_) (fun _ => ?_) | apply State.each_kept | apply State.iff_kept | apply State.txFault_kept | apply State.wr_kept | apply State.wr64_kept
    | (intro x; refine (show Kept s x → _ from ?_) ?_; (on_goal 1 => clear_value x; intro hx); (on_goal 2 => subst x))
    | (intro x; clear_value x)
    | lift_lets
    | intro _

theorem State.beginPlay_kept (h : Kept s t) (n : Nat) (pos : Nat) (seg : BitVec 10) (plays : Nat) (ecc : Ecc) (list : Ecc) : Kept s (State.beginPlay t n pos seg plays ecc list) := by
  unfold State.beginPlay
  repeat' first
    | with_reducible first | assumption | refine State.ite_kept (fun _ => ?_) (fun _ => ?_) | apply State.badSeg_kept | apply State.iff_kept | apply State.loadList_kept | apply State.modTx_kept | apply State.txDue_kept | apply State.txFault_kept
    | (intro x; refine (show Kept s x → _ from ?_) ?_; (on_goal 1 => clear_value x; intro hx); (on_goal 2 => subst x))
    | (intro x; clear_value x)
    | lift_lets
    | intro _

theorem State.enterSeg_kept (h : Kept s t) (n : Nat) (pos : Nat) (seg : BitVec 10) (plays : Nat) (ecc : Ecc) (list : Ecc) : Kept s (State.enterSeg t n pos seg plays ecc list) := by
  unfold State.enterSeg
  repeat' first
    | with_reducible first | assumption | refine State.ite_kept (fun _ => ?_) (fun _ => ?_) | apply State.beginPlay_kept | apply State.modTx_kept
    | (intro x; refine (show Kept s x → _ from ?_) ?_; (on_goal 1 => clear_value x; intro hx); (on_goal 2 => subst x))
    | (intro x; clear_value x)
    | lift_lets
    | intro _
    | refine Kept.snd (by with_reducible assumption) ?_
    | refine KeptO.use (by with_reducible assumption) ?_
    | refine KeptP.use (by with_reducible assumption) ?_
    | split

theorem State.vjRead_kept (h : Kept s t) (n : Nat) (x : TxPort) : Kept s (State.vjRead t n x).2 := by
  unfold State.vjRead
  repeat' first
    | with_reducible first | assumption | refine State.ite_kept (fun _ => ?_) (fun _ => ?_) | apply State.put_kept | apply State.txFault_kept
    | refine Kept.snd (by with_reducible assumption) ?_
    | refine KeptO.use (by with_reducible assumption) ?_
    | refine KeptP.use (by with_reducible assumption) ?_
    | split
    | dsimp only

theorem State.followTable_kept (h : Kept s t) (n : Nat) (x : TxPort) : Kept s (State.followTable t n x).2 := by
  unfold State.followTable
  repeat' first
    | with_reducible first | assumption | refine State.ite_kept (fun _ => ?_) (fun _ => ?_) | apply State.vjRead_kept
    | (intro x; refine (show Kept s x → _ from ?_) ?_; (on_goal 1 => clear_value x; intro hx); (on_goal 2 => subst x))
    | (intro x; clear_value x)
    | lift_lets
    | refine Kept.snd (by with_reducible assumption) ?_
    | refine KeptO.use (by with_reducible assumption) ?_
    | refine KeptP.use (by with_reducible assumption) ?_
    | split

theorem opDecide_kept (h : Kept s t) (n : Nat) : Kept s (opDecide n t) := by
  unfold opDecide
  repeat' first
    | with_reducible first | assumption | refine State.ite_kept (fun _ => ?_) (fun _ => ?_) | apply State.advanceTo_kept | apply State.followTable_kept | apply State.modTx_kept
    | (intro x; refine (show Kept s x → _ from ?_) ?_; (on_goal 1 => clear_value x; intro hx); (on_goal 2 => subst x))
    | (intro x; clear_value x)
    | lift_lets
    | intro _
    | refine Kept.snd (by with_reducible assumption) ?_
    | refine KeptO.use (by with_reducible assumption) ?_
    | refine KeptP.use (by with_reducible assumption) ?_
    | split

theorem State.lateReqs_kept (h : Kept s t) (n : Nat) : Kept s (State.lateReqs t n) := by
  unfold State.lateReqs
  repeat' with_reducible first
    | assumption | refine State.ite_kept (fun _ => ?_) (fun _ => ?_) | apply State.countN_kept | apply State.put_kept

theorem State.endPlay_kept (h : Kept s t) (n : Nat) (ecc : Ecc) (list : Ecc) : Kept s (State.endPlay t n ecc list) := by
  unfold State.endPlay
  repeat' first
    | with_reducible first | assumption | apply State.advanceTo_kept | apply State.enterSeg_kept | apply State.idle_kept | apply State.lateReqs_kept | apply opDecide_kept | apply State.reanchor_kept | apply State.txHalt_kept
    | (intro x; refine (show Kept s x → _ from ?_) ?_; (on_goal 1 => clear_value x; intro hx); (on_goal 2 => subst x))
    | (intro x; clear_value x)
    | lift_lets
    | refine Kept.snd (by with_reducible assumption) ?_
    | refine KeptO.use (by with_reducible assumption) ?_
    | refine KeptP.use (by with_reducible assumption) ?_
    | split

theorem State.startPlay_kept (h : Kept s t) (n : Nat) (pos : Nat) (ecc : Ecc) (list : Ecc) : Kept s (State.startPlay t n pos ecc list) := by
  unfold State.startPlay
  repeat' with_reducible first
    | assumption | refine State.ite_kept (fun _ => ?_) (fun _ => ?_) | apply State.advanceTo_kept | apply State.beginPlay_kept | apply State.enterSeg_kept | apply State.modTx_kept

theorem opSegmentBoundary_kept (h : Kept s t) (n : Nat) (ecc : Ecc) (list : Ecc) (env : Ecc) : Kept s (opSegmentBoundary n ecc list env t) := by
  unfold opSegmentBoundary
  repeat' first
    | with_reducible first | assumption | refine State.ite_kept (fun _ => ?_) (fun _ => ?_) | apply State.advanceTo_kept | apply State.endPlay_kept | apply State.idle_kept | apply State.iff_kept | apply State.startPlay_kept | apply State.txFault_kept | apply State.txHalt_kept
    | (intro x; refine (show Kept s x → _ from ?_) ?_; (on_goal 1 => clear_value x; intro hx); (on_goal 2 => subst x))
    | (intro x; clear_value x)
    | lift_lets
    | intro _
    | refine Kept.snd (by with_reducible assumption) ?_
    | refine KeptO.use (by with_reducible assumption) ?_
    | refine KeptP.use (by with_reducible assumption) ?_
    | split

theorem State.txStart_kept (h : Kept s t) (n : Nat) (pos : Nat) (seg : BitVec 10) (step : Bool) : Kept s (State.txStart t n pos seg step) := by
  unfold State.txStart
  repeat' with_reducible first
    | assumption | apply State.calDrop_kept | apply State.modTx_kept

theorem State.jumpWaiting_kept (h : Kept s t) (n : Nat) (pos : Nat) (seg : BitVec 10) : Kept s (State.jumpWaiting t n pos seg) := by
  unfold State.jumpWaiting
  repeat' with_reducible first
    | assumption | refine State.ite_kept (fun _ => ?_) (fun _ => ?_) | apply State.badSeg_kept | apply State.modTx_kept

theorem State.txJump_kept (h : Kept s t) (n : Nat) (pos : Nat) (seg : BitVec 10) (refuse : State → State) (_ : ∀ u, Kept s u → Kept s (refuse u)) : Kept s (State.txJump t n pos seg refuse) := by
  unfold State.txJump
  repeat' first
    | with_reducible first | assumption | refine State.ite_kept (fun _ => ?_) (fun _ => ?_) | apply State.jumpWaiting_kept | apply State.modTx_kept
    | (intro x; refine (show Kept s x → _ from ?_) ?_; (on_goal 1 => clear_value x; intro hx); (on_goal 2 => subst x))
    | (intro x; clear_value x)
    | lift_lets
    | intro _
    | dsimp only
    | solve_by_elim

theorem State.txStopReq_kept (h : Kept s t) (n : Nat) (pos : Nat) : Kept s (State.txStopReq t n pos) := by
  unfold State.txStopReq
  repeat' with_reducible first
    | assumption | refine State.ite_kept (fun _ => ?_) (fun _ => ?_) | apply State.idle_kept | apply State.modTx_kept | apply State.txHalt_kept

theorem State.txStopNow_kept (h : Kept s t) (n : Nat) (pos : Nat) : Kept s (State.txStopNow t n pos) := by
  unfold State.txStopNow
  repeat' with_reducible first
    | assumption | refine State.ite_kept (fun _ => ?_) (fun _ => ?_) | apply State.modTx_kept

theorem State.txTrigger_kept (h : Kept s t) (n : Nat) (pos : Nat) : Kept s (State.txTrigger t n pos) := by
  unfold State.txTrigger
  repeat' with_reducible first
    | assumption | refine State.ite_kept (fun _ => ?_) (fun _ => ?_) | apply State.modTx_kept | apply State.put_kept

theorem State.waveCfg_kept (h : Kept s t) (n : Nat) : Kept s (State.waveCfg t n) := by
  unfold State.waveCfg
  repeat' with_reducible first
    | assumption | apply State.engFault_kept

theorem opWplay_kept (h : Kept s t) (n : Nat) (seg : BitVec 10) (step : Bool) : Kept s (opWplay n seg step t) := by
  unfold opWplay
  repeat' first
    | with_reducible first | assumption | refine State.ite_kept (fun _ => ?_) (fun _ => ?_) | apply State.txJump_kept | apply State.txStart_kept | apply State.waveCfg_kept
    | (intro x; refine (show Kept s x → _ from ?_) ?_; (on_goal 1 => clear_value x; intro hx); (on_goal 2 => subst x))
    | (intro x; clear_value x)
    | lift_lets
    | intro _

theorem opWstep_kept (h : Kept s t) (n : Nat) : Kept s (opWstep n t) := by
  unfold opWstep
  repeat' with_reducible first
    | assumption | refine State.ite_kept (fun _ => ?_) (fun _ => ?_) | apply State.txTrigger_kept

theorem opWtone_kept (h : Kept s t) (n : Nat) (k : Fin 8) (par : Nat) (imm : Word) : Kept s (opWtone n k par imm t) := by
  unfold opWtone
  repeat' with_reducible first
    | assumption | refine State.ite_kept (fun _ => ?_) (fun _ => ?_) | apply State.modTx_kept | apply State.setTx_kept | apply State.txSoon_kept

theorem opWmark_kept (h : Kept s t) (n : Nat) (rel : BitVec 4) (sel : BitVec 4) (lev : BitVec 4) : Kept s (opWmark n rel sel lev t) := by
  unfold opWmark
  repeat' with_reducible first
    | assumption | apply State.txSoon_kept

theorem State.txSend_kept (h : Kept s t) (p : Path) (n : Nat) (c : TxCmd) : Kept s (State.txSend t p n c) := by
  unfold State.txSend
  repeat' with_reducible first
    | assumption | apply State.modTx_kept

theorem State.txAct_kept (h : Kept s t) (p : Path) (n : Nat) (pos : Nat) (c : TxCmd) : Kept s (State.txAct t p n pos c) := by
  unfold State.txAct
  repeat' first
    | with_reducible first | assumption | refine State.ite_kept (fun _ => ?_) (fun _ => ?_) | apply State.cfgErr_kept | apply State.idle_kept | apply State.txJump_kept | apply State.txStart_kept | apply State.txStopNow_kept | apply State.txStopReq_kept | apply State.txTrigger_kept
    | intro _
    | refine Kept.snd (by with_reducible assumption) ?_
    | refine KeptO.use (by with_reducible assumption) ?_
    | refine KeptP.use (by with_reducible assumption) ?_
    | split

theorem opTxArrival_kept (h : Kept s t) (n : Nat) : Kept s (opTxArrival n t) := by
  unfold opTxArrival
  repeat' first
    | with_reducible first | assumption | apply State.advanceTo_kept | apply State.modTx_kept | apply State.txAct_kept
    | (intro x; refine (show Kept s x → _ from ?_) ?_; (on_goal 1 => clear_value x; intro hx); (on_goal 2 => subst x))
    | (intro x; clear_value x)
    | lift_lets
    | intro _
    | refine Kept.snd (by with_reducible assumption) ?_
    | refine KeptO.use (by with_reducible assumption) ?_
    | refine KeptP.use (by with_reducible assumption) ?_
    | split
    | dsimp only

theorem State.toneSet_kept (h : Kept s t) (p : Path) (n : Nat) (k : Fin 8) (r : Nat) (v : Word) : Kept s (State.toneSet t p n k r v) := by
  unfold State.toneSet
  repeat' with_reducible first
    | assumption | refine State.ite_kept (fun _ => ?_) (fun _ => ?_) | apply State.holdLo_kept | apply State.txSoon_kept

theorem State.txCfgSet_kept (h : Kept s t) (n : Nat) (v : Word) : Kept s (State.txCfgSet t n v) := by
  unfold State.txCfgSet
  repeat' with_reducible first
    | assumption | apply State.txSoon_kept | apply State.wr_kept

theorem State.mkrouteSet_kept (h : Kept s t) (p : Path) (n : Nat) (m : Fin 4) (v : Word) : Kept s (State.mkrouteSet t p n m v) := by
  unfold State.mkrouteSet
  repeat' with_reducible first
    | assumption | refine State.ite_kept (fun _ => ?_) (fun _ => ?_) | apply State.cfgErr_kept | apply State.txSoon_kept | apply State.wr_kept

theorem opMarkerEdge_kept (h : Kept s t) (n : Nat) (m : Nat) (level : Bool) : Kept s (opMarkerEdge n m level t) := by
  unfold opMarkerEdge
  repeat' with_reducible first
    | assumption | refine State.ite_kept (fun _ => ?_) (fun _ => ?_) | apply State.emit_kept | apply State.modTx_kept | apply State.post_kept

theorem State.tabErr_kept (h : Kept s t) (p : Path) (n : Nat) (rx : Bool) : Kept s (State.tabErr t p n rx) := by
  unfold State.tabErr
  repeat' with_reducible first
    | assumption | refine State.ite_kept (fun _ => ?_) (fun _ => ?_) | apply State.cfgErr_kept | apply State.put_kept

theorem State.txTabWrite_kept (h : Kept s t) (p : Path) (n : Nat) (t_ : Nat) (w : Nat) (v : Word64) : Kept s (State.txTabWrite t p n t_ w v) := by
  unfold State.txTabWrite
  repeat' first
    | with_reducible first | assumption | refine State.ite_kept (fun _ => ?_) (fun _ => ?_) | apply State.each_kept | apply State.modTx_kept | apply State.setTab_kept | apply State.tabErr_kept | apply KeptO.getD
    | (intro x; refine (show Kept s x → _ from ?_) ?_; (on_goal 1 => clear_value x; intro hx); (on_goal 2 => subst x))
    | (intro x; clear_value x)
    | lift_lets
    | intro _

theorem State.rxTabWrite_kept (h : Kept s t) (p : Path) (n : Nat) (t_ : Nat) (w : Nat) (v : Word64) : Kept s (State.rxTabWrite t p n t_ w v) := by
  unfold State.rxTabWrite
  repeat' first
    | with_reducible first | assumption | refine State.ite_kept (fun _ => ?_) (fun _ => ?_) | apply State.iff_kept | apply State.keepOld_kept | apply State.run_kept | apply State.setTab_kept | apply State.tabErr_kept
    | (intro x; refine (show Kept s x → _ from ?_) ?_; (on_goal 1 => clear_value x; intro hx); (on_goal 2 => subst x))
    | (intro x; clear_value x)
    | lift_lets
    | intro _

theorem State.tabAccess_kept (h : Kept s t) (p : Path) (n : Nat) (rx : Bool) (wr : Option Word) : Kept s (State.tabAccess t p n rx wr).2 := by
  unfold State.tabAccess
  repeat' first
    | with_reducible first | assumption | refine State.ite_kept (fun _ => ?_) (fun _ => ?_) | apply State.holdLo_kept | apply State.rxTabWrite_kept | apply State.tabErr_kept | apply State.txTabWrite_kept | apply State.wr_kept
    | (intro x; refine (show Kept s x → _ from ?_) ?_; (on_goal 1 => clear_value x; intro hx); (on_goal 2 => subst x))
    | (intro x; clear_value x)
    | lift_lets
    | refine Kept.snd (by with_reducible assumption) ?_
    | refine KeptO.use (by with_reducible assumption) ?_
    | refine KeptP.use (by with_reducible assumption) ?_
    | split

theorem State.tabLo_kept (h : Kept s t) (p : Path) (n : Nat) (rx : Bool) : Kept s (State.tabLo t p n rx).2 := by
  unfold State.tabLo
  repeat' first
    | with_reducible first | assumption | refine State.ite_kept (fun _ => ?_) (fun _ => ?_) | apply State.setLatch_kept | apply State.tabErr_kept
    | (intro x; refine (show Kept s x → _ from ?_) ?_; (on_goal 1 => clear_value x; intro hx); (on_goal 2 => subst x))
    | (intro x; clear_value x)
    | lift_lets
    | split

theorem State.tabSel_kept (h : Kept s t) (p : Path) (n : Nat) (rx : Bool) (v : Word) : Kept s (State.tabSel t p n rx v) := by
  unfold State.tabSel
  repeat' with_reducible first
    | assumption | refine State.ite_kept (fun _ => ?_) (fun _ => ?_) | apply State.modTx_kept | apply State.tabErr_kept | apply State.wr_kept

/-! Machine/Rx.lean -/

theorem State.rxFault_kept (h : Kept s t) (n : Nat) (cls : Nat) (lvl : Nat) : Kept s (State.rxFault t n cls lvl) := by
  unfold State.rxFault
  repeat' with_reducible first
    | assumption | apply State.raise_kept

theorem State.tabSeen_kept (h : Kept s t) (n : Nat) (e : Ecc) : Kept s (State.tabSeen t n e) := by
  unfold State.tabSeen
  repeat' first
    | with_reducible first | assumption | refine State.ite_kept (fun _ => ?_) (fun _ => ?_) | apply State.iff_kept | apply State.rxFault_kept
    | intro _

theorem State.rresServe_kept (h : Kept s t) (n : Nat) (l : List Nat) : Kept s (t.rresServe n l) := by
  induction l generalizing t with
  | nil => exact State.modRx_kept h n _
  | cons k l ih =>
    unfold State.rresServe
    split
    · exact ih (State.modEng_kept (State.modRx_kept h n _) _ _)
    · exact State.modRx_kept h n _

theorem State.rresNow_kept (h : Kept s t) (n : Nat) : Kept s (State.rresNow t n) := by
  unfold State.rresNow
  repeat' with_reducible first
    | assumption | refine State.ite_kept (fun _ => ?_) (fun _ => ?_) | apply State.rresServe_kept

theorem opReadoutResult_kept (h : Kept s t) (n : Nat) (k : Fin 8) (codes : List (BitVec 12)) (word : BitVec 11) (ecc : Ecc) : Kept s (opReadoutResult n k codes word ecc t) := by
  unfold opReadoutResult
  repeat' first
    | with_reducible first | assumption | refine State.ite_kept (fun _ => ?_) (fun _ => ?_) | apply State.advanceTo_kept | apply State.fifoRecord_kept | apply State.iff_kept | apply State.modRx_kept | apply State.post_kept | apply State.rresNow_kept | apply State.tabSeen_kept
    | (intro x; refine (show Kept s x → _ from ?_) ?_; (on_goal 1 => clear_value x; intro hx); (on_goal 2 => subst x))
    | (intro x; clear_value x)
    | lift_lets
    | intro _
    | refine Kept.snd (by with_reducible assumption) ?_
    | refine KeptO.use (by with_reducible assumption) ?_
    | refine KeptP.use (by with_reducible assumption) ?_
    | split

theorem opRint_kept (h : Kept s t) (n : Nat) (k : Fin 8) (fifo : Bool) (post : Bool) (glob : Bool) (line : BitVec 8) : Kept s (opRint n k fifo post glob line t) := by
  unfold opRint
  repeat' with_reducible first
    | assumption | refine State.ite_kept (fun _ => ?_) (fun _ => ?_) | apply State.calDrop_kept | apply State.setRx_kept | apply State.waveCfg_kept

theorem opRres_kept (h : Kept s t) (x : Iss) (rd : Gr) : Kept s (opRres x rd t) := by
  unfold opRres
  repeat' with_reducible first
    | assumption | refine State.ite_kept (fun _ => ?_) (fun _ => ?_) | apply State.modRx_kept | apply State.rresNow_kept | apply State.takeTag_kept

theorem State.resData_kept (h : Kept s t) (p : Path) (n : Nat) (w : Nat) : Kept s (State.resData t p n w).2 := by
  unfold State.resData
  repeat' first
    | with_reducible first | assumption | refine State.ite_kept (fun _ => ?_) (fun _ => ?_) | apply State.modRx_kept
    | intro _
    | refine Kept.snd (by with_reducible assumption) ?_
    | refine KeptO.use (by with_reducible assumption) ?_
    | refine KeptP.use (by with_reducible assumption) ?_
    | split
    | dsimp only
    | with_reducible apply Kept.mk

theorem State.resFlush_kept (h : Kept s t) (n : Nat) : Kept s (State.resFlush t n) := by
  unfold State.resFlush
  repeat' with_reducible first
    | assumption | apply State.fifoBeacon_kept | apply State.modRx_kept

theorem State.demodSet_kept (h : Kept s t) (p : Path) (n : Nat) (k : Nat) (r : Nat) (v : Word) : Kept s (State.demodSet t p n k r v) := by
  unfold State.demodSet
  repeat' with_reducible first
    | assumption | refine State.ite_kept (fun _ => ?_) (fun _ => ?_) | apply State.holdLo_kept | apply State.keepOld_kept | apply State.wr_kept | apply State.wr64_kept

theorem State.demodWinSet_kept (h : Kept s t) (p : Path) (n : Nat) (k : Nat) (v : Word) : Kept s (State.demodWinSet t p n k v) := by
  unfold State.demodWinSet
  repeat' with_reducible first
    | assumption | refine State.ite_kept (fun _ => ?_) (fun _ => ?_) | apply State.cfgErr_kept | apply State.wr_kept

theorem State.discSet_kept (h : Kept s t) (n : Nat) (o : Nat) (v : Word) : Kept s (State.discSet t n o v) := by
  unfold State.discSet
  repeat' with_reducible first
    | assumption | apply State.keepOld_kept | apply State.wr_kept

theorem State.modAcq_kept (h : Kept s t) (n : Nat) (f : Acq → Acq) : Kept s (State.modAcq t n f) := by
  unfold State.modAcq
  repeat' with_reducible first
    | assumption | apply State.modRx_kept

theorem State.aqFlush_kept (h : Kept s t) (n : Nat) : Kept s (State.aqFlush t n) := by
  unfold State.aqFlush
  repeat' first
    | with_reducible first | assumption | apply State.aqPush_kept | apply State.each_kept | apply State.modAcq_kept
    | (intro x; refine (show Kept s x → _ from ?_) ?_; (on_goal 1 => clear_value x; intro hx); (on_goal 2 => subst x))
    | (intro x; clear_value x)
    | lift_lets
    | intro _
    | refine Kept.snd (by with_reducible assumption) ?_
    | refine KeptO.use (by with_reducible assumption) ?_
    | refine KeptP.use (by with_reducible assumption) ?_
    | split
    | dsimp only

theorem State.aqAdd_kept (h : Kept s t) (n : Nat) (v : SSample) : Kept s (State.aqAdd t n v) := by
  unfold State.aqAdd
  repeat' first
    | with_reducible first | assumption | apply State.aqFlush_kept | apply State.iff_kept | apply State.modAcq_kept
    | (intro x; refine (show Kept s x → _ from ?_) ?_; (on_goal 1 => clear_value x; intro hx); (on_goal 2 => subst x))
    | (intro x; clear_value x)
    | lift_lets
    | intro _

theorem State.aqMark_kept (h : Kept s t) (n : Nat) (m : Mark) (v : SSample) (held : Bool) : Kept s (State.aqMark t n m v held) := by
  unfold State.aqMark
  repeat' with_reducible first
    | assumption | refine State.ite_kept (fun _ => ?_) (fun _ => ?_) | apply State.aqPush_kept | apply State.modAcq_kept

theorem State.aqFinish_kept (h : Kept s t) (n : Nat) : Kept s (State.aqFinish t n) := by
  unfold State.aqFinish
  repeat' with_reducible first
    | assumption | apply State.aqFlush_kept | apply State.modAcq_kept

theorem State.aqSettle_kept (h : Kept s t) (n : Nat) : Kept s (State.aqSettle t n) := by
  unfold State.aqSettle
  repeat' first
    | with_reducible first | assumption | apply State.aqFinish_kept | apply State.iff_kept | apply State.run_kept
    | intro _

theorem State.setUnitOf_kept (h : Kept s t) (n : Nat) (u : Nat) (y : TrigUnit) : Kept s (State.setUnitOf t n u y) := by
  unfold State.setUnitOf
  repeat' with_reducible first
    | assumption | apply State.modRx_kept

theorem State.armUnit_kept (h : Kept s t) (n : Nat) (u : Nat) (pos : Nat) : Kept s (State.armUnit t n u pos) := by
  unfold State.armUnit
  repeat' with_reducible first
    | assumption | apply State.setUnitOf_kept

theorem State.fireUnit_kept (h : Kept s t) (n : Nat) (u : Nat) (code : Nat) (v : SSample) : Kept s (State.fireUnit t n u code v).1 := by
  unfold State.fireUnit
  repeat' with_reducible first
    | assumption | apply State.aqMark_kept | apply State.setUnitOf_kept

theorem State.unitsStep_kept (h : Kept s t) (n : Nat) (v : SSample) (pos : Nat) (e : TabEcc) : Kept s (State.unitsStep t n v pos e).1 := by
  unfold State.unitsStep
  repeat' first
    | with_reducible first | assumption | refine State.ite_kept (fun _ => ?_) (fun _ => ?_) | apply State.count_kept | apply State.fireUnit_kept | apply State.setUnitOf_kept | apply KeptO.getD | refine foldl_kept1 ?_ ?_
    | (intro x; refine (show Kept s x → _ from ?_) ?_; (on_goal 1 => clear_value x; intro hx); (on_goal 2 => subst x))
    | (intro x; clear_value x)
    | lift_lets
    | intro _
    | refine Kept.snd (by with_reducible assumption) ?_
    | refine KeptO.use (by with_reducible assumption) ?_
    | refine KeptP.use (by with_reducible assumption) ?_
    | split
    | dsimp only

theorem State.holdoffOver_kept (h : Kept s t) (n : Nat) (v : SSample) : Kept s (State.holdoffOver t n v) := by
  unfold State.holdoffOver
  repeat' first
    | with_reducible first | assumption | refine State.ite_kept (fun _ => ?_) (fun _ => ?_) | apply State.count_kept | apply State.each_kept | apply State.iff_kept | apply State.modAcq_kept | apply State.setUnitOf_kept
    | (intro x; refine (show Kept s x → _ from ?_) ?_; (on_goal 1 => clear_value x; intro hx); (on_goal 2 => subst x))
    | (intro x; clear_value x)
    | lift_lets
    | intro _

theorem State.aqSample_kept (h : Kept s t) (n : Nat) (v : SSample) (pos : Nat) (e : TabEcc) : Kept s (State.aqSample t n v pos e) := by
  unfold State.aqSample
  repeat' first
    | with_reducible first | assumption | refine State.ite_kept (fun _ => ?_) (fun _ => ?_) | apply State.aqAdd_kept | apply State.aqFinish_kept | apply State.aqFlush_kept | apply State.aqMark_kept | apply State.each_kept | apply State.holdoffOver_kept | apply State.iff_kept | apply State.modAcq_kept | apply State.post_kept | apply State.put_kept | apply State.unitsStep_kept
    | (intro x; refine (show Kept s x → _ from ?_) ?_; (on_goal 1 => clear_value x; intro hx); (on_goal 2 => subst x))
    | (intro x; clear_value x)
    | lift_lets
    | intro _
    | refine Kept.snd (by with_reducible assumption) ?_
    | refine KeptO.use (by with_reducible assumption) ?_
    | refine KeptP.use (by with_reducible assumption) ?_
    | split
    | dsimp only

theorem State.aqInput_kept (h : Kept s t) (n : Nat) (x : BitVec 12) (e : TabEcc) : Kept s (State.aqInput t n x e) := by
  unfold State.aqInput
  repeat' with_reducible first
    | assumption | refine State.ite_kept (fun _ => ?_) (fun _ => ?_) | apply State.advanceTo_kept | apply State.aqFinish_kept | apply State.aqSample_kept | apply State.modAcq_kept

theorem State.aqFeed_kept (h : Kept s t) (n : Nat) (codes : List (BitVec 12)) (e : TabEcc) : Kept s (State.aqFeed t n codes e) := by
  unfold State.aqFeed
  repeat' first
    | with_reducible first | assumption | apply State.aqInput_kept | apply State.aqSettle_kept | apply State.each_kept | apply State.iff_kept | apply State.run_kept | apply State.tabSeen_kept
    | intro _

theorem opAqstart_kept (h : Kept s t) (n : Nat) (demod : Bool) (c : Fin 8) : Kept s (opAqstart n demod c t) := by
  unfold opAqstart
  repeat' first
    | with_reducible first | assumption | refine State.ite_kept (fun _ => ?_) (fun _ => ?_) | apply State.aqBeacon_kept | apply State.aqFinish_kept | apply State.calDrop_kept | apply State.each_kept | apply State.iff_kept | apply State.modAcq_kept | apply State.run_kept | apply State.setUnitOf_kept | apply State.waveCfg_kept
    | (intro x; refine (show Kept s x → _ from ?_) ?_; (on_goal 1 => clear_value x; intro hx); (on_goal 2 => subst x))
    | (intro x; clear_value x)
    | lift_lets
    | intro _

theorem State.aqStopAt_kept (h : Kept s t) (n : Nat) (pos : Nat) : Kept s (State.aqStopAt t n pos) := by
  unfold State.aqStopAt
  repeat' with_reducible first
    | assumption | refine State.ite_kept (fun _ => ?_) (fun _ => ?_) | apply State.modAcq_kept

theorem opAqmark_kept (h : Kept s t) (n : Nat) (code : BitVec 16) : Kept s (opAqmark n code t) := by
  unfold opAqmark
  repeat' with_reducible first
    | assumption | refine State.ite_kept (fun _ => ?_) (fun _ => ?_) | apply State.aqSettle_kept | apply State.modAcq_kept | apply State.run_kept | apply State.waveCfg_kept

theorem State.armHost_kept (h : Kept s t) (n : Nat) (units : BitVec 4) : Kept s (State.armHost t n units) := by
  unfold State.armHost
  repeat' first
    | with_reducible first | assumption | refine State.ite_kept (fun _ => ?_) (fun _ => ?_) | apply State.armUnit_kept | apply State.each_kept
    | intro _

theorem State.aqRingReset_kept (h : Kept s t) (p : Path) (n : Nat) : Kept s (State.aqRingReset t p n) := by
  unfold State.aqRingReset
  repeat' with_reducible first
    | assumption | refine State.ite_kept (fun _ => ?_) (fun _ => ?_) | apply State.aqBeacon_kept | apply State.aqSettle_kept | apply State.cfgErr_kept | apply State.modAcq_kept | apply State.run_kept | apply State.wr_kept

theorem State.rresDrop_kept (h : Kept s t) (n : Nat) : Kept s (State.rresDrop t n) := by
  unfold State.rresDrop
  repeat' with_reducible first
    | assumption | refine State.ite_kept (fun _ => ?_) (fun _ => ?_) | apply State.modEng_kept | apply State.modRx_kept

theorem State.rxCfgSet_kept (h : Kept s t) (p : Path) (n : Nat) (v : Word) : Kept s (State.rxCfgSet t p n v) := by
  unfold State.rxCfgSet
  repeat' with_reducible first
    | assumption | refine State.ite_kept (fun _ => ?_) (fun _ => ?_) | apply State.aqSettle_kept | apply State.cfgErr_kept | apply State.rresDrop_kept | apply State.rresNow_kept | apply State.run_kept | apply State.wr_kept

theorem State.aqSizeSet_kept (h : Kept s t) (p : Path) (n : Nat) (v : Word) : Kept s (State.aqSizeSet t p n v) := by
  unfold State.aqSizeSet
  repeat' with_reducible first
    | assumption | refine State.ite_kept (fun _ => ?_) (fun _ => ?_) | apply State.aqSettle_kept | apply State.cfgErr_kept | apply State.run_kept | apply State.wr_kept

theorem State.aqRegSet_kept (h : Kept s t) (p : Path) (a : Nat) (n : Nat) (v : Word) : Kept s (State.aqRegSet t p a n v) := by
  unfold State.aqRegSet
  repeat' with_reducible first
    | assumption | refine State.ite_kept (fun _ => ?_) (fun _ => ?_) | apply State.aqSettle_kept | apply State.cfgErr_kept | apply State.run_kept | apply State.wr_kept

theorem State.trigSet_kept (h : Kept s t) (p : Path) (n : Nat) (u : Nat) (r : Nat) (v : Word) : Kept s (State.trigSet t p n u r v) := by
  unfold State.trigSet
  repeat' with_reducible first
    | assumption | refine State.ite_kept (fun _ => ?_) (fun _ => ?_) | apply State.cfgErr_kept | apply State.wr_kept

theorem State.aqPlace_kept (h : Kept s t) (n : Nat) (r : BitVec 256) : Kept s (State.aqPlace t n r) := by
  unfold State.aqPlace
  repeat' with_reducible first
    | assumption | refine State.ite_kept (fun _ => ?_) (fun _ => ?_) | apply State.emit_kept | apply State.hbmPut_kept | apply State.wr_kept

theorem State.modStream_kept (h : Kept s t) (n : Nat) (f : Stream → Stream) : Kept s (State.modStream t n f) := by
  unfold State.modStream
  repeat' with_reducible first
    | assumption | apply State.modAcq_kept

theorem opAcqRecordWrite_kept (h : Kept s t) (n : Nat) : Kept s (opAcqRecordWrite n t) := by
  unfold opAcqRecordWrite
  repeat' first
    | with_reducible first | assumption | refine State.ite_kept (fun _ => ?_) (fun _ => ?_) | apply State.aqLose_kept | apply State.aqPlace_kept | apply State.aqSettle_kept | apply State.modStream_kept
    | (intro x; refine (show Kept s x → _ from ?_) ?_; (on_goal 1 => clear_value x; intro hx); (on_goal 2 => subst x))
    | (intro x; clear_value x)
    | lift_lets
    | intro _
    | refine Kept.snd (by with_reducible assumption) ?_
    | refine KeptO.use (by with_reducible assumption) ?_
    | refine KeptP.use (by with_reducible assumption) ?_
    | split

theorem State.rxStop_kept (h : Kept s t) (n : Nat) : Kept s (State.rxStop t n) := by
  unfold State.rxStop
  repeat' first
    | with_reducible first | assumption | apply State.aqFinish_kept | apply State.iff_kept | apply State.modRx_kept | apply State.run_kept
    | intro _

/-! Machine/EngCtl.lean -/

theorem State.startPe_kept (h : Kept s t) (n : Nat) : Kept s (State.startPe t n) := by
  unfold State.startPe
  repeat' first
    | with_reducible first | assumption | apply State.bankRelease_kept | apply State.each_kept | apply State.iff_kept | apply State.modPe_kept | apply State.ringBeacon_kept | apply State.wr_kept
    | (intro x; refine (show Kept s x → _ from ?_) ?_; (on_goal 1 => clear_value x; intro hx); (on_goal 2 => subst x))
    | (intro x; clear_value x)
    | lift_lets
    | intro _

theorem State.startWe_kept (h : Kept s t) (n : Nat) : Kept s (State.startWe t n) := by
  unfold State.startWe
  repeat' with_reducible first
    | assumption | apply State.fifoBeacon_kept | apply State.modRx_kept

theorem opStart_kept (h : Kept s t) (p : Path) (e : Nat) : Kept s (opStart p e t) := by
  unfold opStart
  repeat' with_reducible first
    | assumption | refine State.ite_kept (fun _ => ?_) (fun _ => ?_) | apply State.cfgErr_kept | apply State.modEng_kept | apply State.startPe_kept | apply State.startWe_kept

theorem State.stopFor_kept (h : Kept s t) (e : Nat) (reason : Nat) : Kept s (State.stopFor t e reason) := by
  unfold State.stopFor
  repeat' with_reducible first
    | assumption | refine State.ite_kept (fun _ => ?_) (fun _ => ?_) | apply State.engStop_kept | apply State.setEng_kept

theorem opStop_kept (h : Kept s t) (e : Nat) : Kept s (opStop e t) := by
  unfold opStop
  repeat' with_reducible first
    | assumption | apply State.stopFor_kept

theorem opSuspend_kept (h : Kept s t) (e : Nat) : Kept s (opSuspend e t) := by
  unfold opSuspend
  repeat' with_reducible first
    | assumption | refine State.ite_kept (fun _ => ?_) (fun _ => ?_) | apply State.setEng_kept

theorem opResume_kept (h : Kept s t) (e : Nat) : Kept s (opResume e t) := by
  unfold opResume
  repeat' first
    | with_reducible first | assumption | refine State.ite_kept (fun _ => ?_) (fun _ => ?_) | apply State.judgeAt_kept | apply State.setEng_kept | apply State.wakeWaits_kept
    | (intro x; refine (show Kept s x → _ from ?_) ?_; (on_goal 1 => clear_value x; intro hx); (on_goal 2 => subst x))
    | (intro x; clear_value x)
    | lift_lets
    | refine Kept.snd (by with_reducible assumption) ?_
    | refine KeptO.use (by with_reducible assumption) ?_
    | refine KeptP.use (by with_reducible assumption) ?_
    | split

theorem opCont_kept (h : Kept s t) (e : Nat) : Kept s (opCont e t) := by
  unfold opCont
  repeat' with_reducible first
    | assumption | refine State.ite_kept (fun _ => ?_) (fun _ => ?_) | apply State.setEng_kept

theorem State.engCtrl_kept (h : Kept s t) (p : Path) (e : Nat) (v : Word) : Kept s (State.engCtrl t p e v) := by
  unfold State.engCtrl
  repeat' with_reducible first
    | assumption | refine State.ite_kept (fun _ => ?_) (fun _ => ?_) | apply State.engStopReq_kept | apply opCont_kept | apply opResume_kept | apply opStart_kept | apply opStop_kept | apply opSuspend_kept

theorem opEngineStopped_kept (h : Kept s t) (e : Nat) : Kept s (opEngineStopped e t) := by
  unfold opEngineStopped
  repeat' with_reducible first
    | assumption | refine State.ite_kept (fun _ => ?_) (fun _ => ?_) | apply State.engIrq_kept | apply State.setEng_kept

theorem State.engStatSet_kept (h : Kept s t) (e : Nat) (v : Word) : Kept s (State.engStatSet t e v) := by
  unfold State.engStatSet
  repeat' with_reducible first
    | assumption | refine State.ite_kept (fun _ => ?_) (fun _ => ?_) | apply State.modEng_kept | apply State.wr_kept

theorem State.sigRead_kept (h : Kept s t) (e : Nat) : Kept s (State.sigRead t e).2 := by
  unfold State.sigRead
  repeat' first
    | with_reducible first | assumption | apply State.setEng_kept
    | (intro x; refine (show Kept s x → _ from ?_) ?_; (on_goal 1 => clear_value x; intro hx); (on_goal 2 => subst x))
    | (intro x; clear_value x)
    | lift_lets
    | refine Kept.snd (by with_reducible assumption) ?_
    | refine KeptO.use (by with_reducible assumption) ?_
    | refine KeptP.use (by with_reducible assumption) ?_
    | split

theorem State.imageSet_kept (h : Kept s t) (e : Nat) (o : Nat) (v : Word64) : Kept s (State.imageSet t e o v) := by
  unfold State.imageSet
  repeat' with_reducible first
    | assumption | refine State.ite_kept (fun _ => ?_) (fun _ => ?_) | apply State.modEng_kept

theorem State.imageRead_kept (h : Kept s t) (p : Path) (e : Nat) (o : Nat) : Kept s (State.imageRead t p e o).2 := by
  unfold State.imageRead
  repeat' first
    | with_reducible first | assumption | refine State.ite_kept (fun _ => ?_) (fun _ => ?_) | apply State.cfgErr_kept | apply State.iff_kept | apply State.setLatch_kept
    | (intro x; refine (show Kept s x → _ from ?_) ?_; (on_goal 1 => clear_value x; intro hx); (on_goal 2 => subst x))
    | (intro x; clear_value x)
    | lift_lets
    | intro _
    | split

theorem State.imageWrite_kept (h : Kept s t) (p : Path) (e : Nat) (o : Nat) (v : Word) : Kept s (State.imageWrite t p e o v) := by
  unfold State.imageWrite
  repeat' with_reducible first
    | assumption | refine State.ite_kept (fun _ => ?_) (fun _ => ?_) | apply State.cfgErr_kept | apply State.holdLo_kept | apply State.imageSet_kept

theorem State.memSet_kept (h : Kept s t) (p : Path) (e : Nat) (o : Nat) (v : Word) : Kept s (State.memSet t p e o v) := by
  unfold State.memSet
  repeat' with_reducible first
    | assumption | refine State.ite_kept (fun _ => ?_) (fun _ => ?_) | apply State.cfgErr_kept | apply State.wr_kept

theorem opTagWriteback_kept (h : Kept s t) (e : Nat) (tag : Nat) : Kept s (opTagWriteback e tag t) := by
  unfold opTagWriteback
  repeat' first
    | with_reducible first | assumption | apply State.advanceTo_kept | apply State.modEng_kept
    | intro _
    | refine Kept.snd (by with_reducible assumption) ?_
    | refine KeptO.use (by with_reducible assumption) ?_
    | refine KeptP.use (by with_reducible assumption) ?_
    | split

theorem opIssuePastEnd_kept (h : Kept s t) (e : Nat) : Kept s (opIssuePastEnd e t) := by
  unfold opIssuePastEnd
  repeat' with_reducible first
    | assumption | refine State.ite_kept (fun _ => ?_) (fun _ => ?_) | apply State.advanceTo_kept | apply State.engFault_kept | apply State.engStop_kept | apply State.vecWait_kept

theorem opUndefined_kept (h : Kept s t) (e : Nat) (w : Word64) : Kept s (opUndefined e w t) := by
  unfold opUndefined
  repeat' with_reducible first
    | assumption | refine State.ite_kept (fun _ => ?_) (fun _ => ?_) | apply State.advanceTo_kept | apply State.illegal_kept | apply State.vecWait_kept

/-! Machine/PatternCmd.lean -/

theorem State.fetchVec_kept (h : Kept s t) (n : Nat) (index : BitVec 26) (i : Nat) (ecc : HbmEcc) : Kept s (State.fetchVec t n index i ecc) := by
  unfold State.fetchVec
  repeat' with_reducible first
    | assumption | refine State.ite_kept (fun _ => ?_) (fun _ => ?_) | apply State.hbmRead_kept | apply State.modPe_kept

theorem State.fetchEntry_kept (h : Kept s t) (n : Nat) (index : BitVec 26) (ecc : HbmEcc) : Kept s (State.fetchEntry t n index ecc) := by
  unfold State.fetchEntry
  repeat' first
    | with_reducible first | assumption | refine State.ite_kept (fun _ => ?_) (fun _ => ?_) | apply State.hbmRead_kept | apply State.iff_kept | apply State.modPe_kept
    | (intro x; refine (show Kept s x → _ from ?_) ?_; (on_goal 1 => clear_value x; intro hx); (on_goal 2 => subst x))
    | (intro x; clear_value x)
    | lift_lets
    | intro _

theorem opVectorFetch_kept (h : Kept s t) (n : Nat) (index : BitVec 26) (first : Nat) (cnt : Nat) (ecc : HbmEcc) : Kept s (opVectorFetch n index first cnt ecc t) := by
  unfold opVectorFetch
  repeat' first
    | with_reducible first | assumption | refine State.ite_kept (fun _ => ?_) (fun _ => ?_) | apply State.each_kept | apply State.fetchEntry_kept | apply State.fetchVec_kept | apply State.vecOn_kept
    | (intro x; refine (show Kept s x → _ from ?_) ?_; (on_goal 1 => clear_value x; intro hx); (on_goal 2 => subst x))
    | (intro x; clear_value x)
    | lift_lets
    | intro _

theorem State.siteAbort_kept (h : Kept s t) (n : Nat) : Kept s (State.siteAbort t n) := by
  unfold State.siteAbort
  repeat' with_reducible first
    | assumption | refine State.ite_kept (fun _ => ?_) (fun _ => ?_) | apply State.modPe_kept | apply State.siteRes_kept

theorem State.starveOne_kept (h : Kept s t) (n : Nat) (q : VisRun) : Kept s (State.starveOne t n q) := by
  unfold State.starveOne
  repeat' with_reducible first
    | assumption | refine State.ite_kept (fun _ => ?_) (fun _ => ?_) | apply State.applyVec_kept | apply State.count_kept | apply State.engFault_kept | apply State.modEng_kept | apply State.modPe_kept | apply State.put_kept | apply State.siteAbort_kept

theorem opStarveCycle_kept (h : Kept s t) (n : Nat) : Kept s (opStarveCycle n t) := by
  unfold opStarveCycle
  repeat' first
    | with_reducible first | assumption | refine State.ite_kept (fun _ => ?_) (fun _ => ?_) | apply State.advanceTo_kept | apply State.modEng_kept | apply State.starveOne_kept | apply State.vecOn_kept
    | (intro x; refine (show Kept s x → _ from ?_) ?_; (on_goal 1 => clear_value x; intro hx); (on_goal 2 => subst x))
    | (intro x; clear_value x)
    | lift_lets
    | intro _
    | refine Kept.snd (by with_reducible assumption) ?_
    | refine KeptO.use (by with_reducible assumption) ?_
    | refine KeptP.use (by with_reducible assumption) ?_
    | split

theorem State.starveSet_kept (h : Kept s t) (p : Path) (n : Nat) (v : Word64) : Kept s (State.starveSet t p n v) := by
  unfold State.starveSet
  repeat' with_reducible first
    | assumption | refine State.ite_kept (fun _ => ?_) (fun _ => ?_) | apply State.cfgErr_kept | apply State.wr64_kept

theorem State.apgSet_kept (h : Kept s t) (p : Path) (n : Nat) (a : Nat) (v : Word) (ok : Bool) : Kept s (State.apgSet t p n a v ok) := by
  unfold State.apgSet
  repeat' with_reducible first
    | assumption | refine State.ite_kept (fun _ => ?_) (fun _ => ?_) | apply State.cfgErr_kept | apply State.wr_kept

theorem State.scrSet_kept (h : Kept s t) (p : Path) (n : Nat) (w : Nat) (v : Word) : Kept s (State.scrSet t p n w v) := by
  unfold State.scrSet
  repeat' first
    | with_reducible first | assumption | refine State.ite_kept (fun _ => ?_) (fun _ => ?_) | apply State.cfgErr_kept | apply State.iff_kept | apply State.wr_kept
    | (intro x; refine (show Kept s x → _ from ?_) ?_; (on_goal 1 => clear_value x; intro hx); (on_goal 2 => subst x))
    | (intro x; clear_value x)
    | lift_lets
    | intro _

theorem State.lmapSet_kept (h : Kept s t) (p : Path) (n : Nat) (k : Nat) (l : Nat) (v : Word) : Kept s (State.lmapSet t p n k l v) := by
  unfold State.lmapSet
  repeat' with_reducible first
    | assumption | apply State.apgSet_kept

theorem State.stoppedSet_kept (h : Kept s t) (p : Path) (n : Nat) (f : State → State) (_ : ∀ u, Kept s u → Kept s (f u)) : Kept s (State.stoppedSet t p n f) := by
  unfold State.stoppedSet
  repeat' first
    | with_reducible first | assumption | refine State.ite_kept (fun _ => ?_) (fun _ => ?_) | apply State.cfgErr_kept
    | intro _
    | dsimp only
    | solve_by_elim

theorem State.sitesSet_kept (h : Kept s t) (p : Path) (n : Nat) (v : Word) : Kept s (State.sitesSet t p n v) := by
  unfold State.sitesSet
  repeat' with_reducible first
    | assumption | refine State.ite_kept (fun _ => ?_) (fun _ => ?_) | apply State.cfgErr_kept | apply State.modPe_kept

theorem State.sitesGet_kept (h : Kept s t) (p : Path) (n : Nat) : Kept s (State.sitesGet t p n).2 := by
  unfold State.sitesGet
  repeat' first
    | with_reducible first | assumption | refine State.ite_kept (fun _ => ?_) (fun _ => ?_) | apply State.cfgErr_kept
    | split

theorem State.fsFlip_kept (h : Kept s t) (n : Nat) (ts : Nat) (f : Fin 64 × Fin 65) : Kept s (State.fsFlip t n ts f) := by
  unfold State.fsFlip
  repeat' first
    | with_reducible first | assumption | refine State.ite_kept (fun _ => ?_) (fun _ => ?_) | apply State.wr64_kept
    | (intro x; refine (show Kept s x → _ from ?_) ?_; (on_goal 1 => clear_value x; intro hx); (on_goal 2 => subst x))
    | (intro x; clear_value x)
    | lift_lets
    | intro _
    | dsimp only
    | with_reducible apply Kept.mk

theorem State.fsUpset_kept (h : Kept s t) (n : Nat) (ts : Nat) (up : Upset) : Kept s (State.fsUpset t n ts up) := by
  unfold State.fsUpset
  repeat' first
    | with_reducible first | assumption | apply State.each_kept | apply State.fsFlip_kept
    | intro _

theorem State.fsError_kept (h : Kept s t) (n : Nat) (ts : Nat) (w : Nat) (i : Nat) : Kept s (State.fsError t n ts w i) := by
  unfold State.fsError
  repeat' with_reducible first
    | assumption | refine State.ite_kept (fun _ => ?_) (fun _ => ?_) | apply State.count_kept | apply State.put_kept | apply State.wrf_kept

theorem opPeriodRecordRead_kept (h : Kept s t) (n : Nat) (ts : BitVec 6) (up : Upset) : Kept s (opPeriodRecordRead n ts up t) := by
  unfold opPeriodRecordRead
  repeat' first
    | with_reducible first | assumption | refine State.ite_kept (fun _ => ?_) (fun _ => ?_) | apply State.advanceTo_kept | apply State.engFault_kept | apply State.engStopOut_kept | apply State.fsError_kept | apply State.fsUpset_kept | apply State.modPe_kept
    | (intro x; refine (show Kept s x → _ from ?_) ?_; (on_goal 1 => clear_value x; intro hx); (on_goal 2 => subst x))
    | (intro x; clear_value x)
    | lift_lets
    | intro _
    | refine Kept.snd (by with_reducible assumption) ?_
    | refine KeptO.use (by with_reducible assumption) ?_
    | refine KeptP.use (by with_reducible assumption) ?_
    | split

/-! Machine/Rau.lean -/

theorem State.rauWrite_kept (h : Kept s t) (k : Nat) (b : Nat) : Kept s (State.rauWrite t k b) := by
  unfold State.rauWrite
  repeat' with_reducible first
    | assumption | refine State.ite_kept (fun _ => ?_) (fun _ => ?_) | apply State.hbmPut_kept

theorem State.rauWork_kept (h : Kept s t) (k : Nat) (b : Nat) : Kept s (State.rauWork t k b) := by
  unfold State.rauWork
  repeat' first
    | with_reducible first | assumption | refine State.ite_kept (fun _ => ?_) (fun _ => ?_) | apply State.each_kept | apply State.free_kept | apply State.hbmPutW_kept
    | (intro x; refine (show Kept s x → _ from ?_) ?_; (on_goal 1 => clear_value x; intro hx); (on_goal 2 => subst x))
    | (intro x; clear_value x)
    | lift_lets
    | intro _

theorem State.rauFinal_kept (h : Kept s t) (k : Nat) (b : Nat) (o : RauOut) : Kept s (State.rauFinal t k b o) := by
  unfold State.rauFinal
  repeat' first
    | with_reducible first | assumption | refine State.ite_kept (fun _ => ?_) (fun _ => ?_) | apply State.rauWrite_kept | apply State.setSite_kept | apply State.wrf_kept
    | (intro x; refine (show Kept s x → _ from ?_) ?_; (on_goal 1 => clear_value x; intro hx); (on_goal 2 => subst x))
    | (intro x; clear_value x)
    | lift_lets
    | refine Kept.snd (by with_reducible assumption) ?_
    | refine KeptO.use (by with_reducible assumption) ?_
    | refine KeptP.use (by with_reducible assumption) ?_
    | split

theorem State.rauStore_kept (h : Kept s t) (k : Nat) (b : Nat) (v : Block) : Kept s (State.rauStore t k b v) := by
  unfold State.rauStore
  repeat' first
    | with_reducible first | assumption | apply State.rauFinal_kept | apply State.rauWork_kept | apply State.setSite_kept
    | (intro x; refine (show Kept s x → _ from ?_) ?_; (on_goal 1 => clear_value x; intro hx); (on_goal 2 => subst x))
    | (intro x; clear_value x)
    | lift_lets
    | refine Kept.snd (by with_reducible assumption) ?_
    | refine KeptO.use (by with_reducible assumption) ?_
    | refine KeptP.use (by with_reducible assumption) ?_
    | split

theorem State.rauSeen_kept (h : Kept s t) (k : Nat) (b : Nat) (ecc : HbmEcc) : Kept s (State.rauSeen t k b ecc) := by
  unfold State.rauSeen
  repeat' first
    | with_reducible first | assumption | refine State.ite_kept (fun _ => ?_) (fun _ => ?_) | apply State.hbmSeen_kept | apply State.iff_kept | apply State.raise_kept
    | intro _

theorem opCellFail_kept (h : Kept s t) (u : Nat) (ecc : HbmEcc) : Kept s (opCellFail u ecc t) := by
  unfold opCellFail
  repeat' first
    | with_reducible first | assumption | refine State.ite_kept (fun _ => ?_) (fun _ => ?_) | apply State.put_kept | apply State.rauFinal_kept | apply State.rauSeen_kept | apply State.rauStore_kept | apply State.setRau_kept
    | (intro x; refine (show Kept s x → _ from ?_) ?_; (on_goal 1 => clear_value x; intro hx); (on_goal 2 => subst x))
    | (intro x; clear_value x)
    | lift_lets
    | refine Kept.snd (by with_reducible assumption) ?_
    | refine KeptO.use (by with_reducible assumption) ?_
    | refine KeptP.use (by with_reducible assumption) ?_
    | split
    | dsimp only

theorem opRepairSearch_kept (h : Kept s t) (u : Nat) (ecc : HbmEcc) : Kept s (opRepairSearch u ecc t) := by
  unfold opRepairSearch
  repeat' first
    | with_reducible first | assumption | refine State.ite_kept (fun _ => ?_) (fun _ => ?_) | apply State.rauFinal_kept | apply State.rauSeen_kept | apply State.rauStore_kept | apply State.setRau_kept
    | (intro x; refine (show Kept s x → _ from ?_) ?_; (on_goal 1 => clear_value x; intro hx); (on_goal 2 => subst x))
    | (intro x; clear_value x)
    | lift_lets
    | intro _
    | refine Kept.snd (by with_reducible assumption) ?_
    | refine KeptO.use (by with_reducible assumption) ?_
    | refine KeptP.use (by with_reducible assumption) ?_
    | split
    | dsimp only

theorem State.rauErr_kept (h : Kept s t) (p : Path) (k : Nat) : Kept s (State.rauErr t p k) := by
  unfold State.rauErr
  repeat' with_reducible first
    | assumption | apply State.cfgErr_kept | apply State.put_kept

theorem opRauClear_kept (h : Kept s t) (p : Path) (k : Nat) : Kept s (opRauClear p k t) := by
  unfold opRauClear
  repeat' first
    | with_reducible first | assumption | refine State.ite_kept (fun _ => ?_) (fun _ => ?_) | apply State.each_kept | apply State.put_kept | apply State.rauErr_kept | apply State.rauWork_kept | apply State.rauWrite_kept | apply State.setSite_kept | apply State.wr_kept
    | (intro x; refine (show Kept s x → _ from ?_) ?_; (on_goal 1 => clear_value x; intro hx); (on_goal 2 => subst x))
    | (intro x; clear_value x)
    | lift_lets
    | intro _

theorem opSeal_kept (h : Kept s t) (k : Nat) : Kept s (opSeal k t) := by
  unfold opSeal
  repeat' with_reducible first
    | assumption | refine State.ite_kept (fun _ => ?_) (fun _ => ?_) | apply State.put_kept | apply State.setSite_kept

theorem State.rauCmd_kept (h : Kept s t) (p : Path) (k : Nat) (v : Word) : Kept s (State.rauCmd t p k v) := by
  unfold State.rauCmd
  repeat' with_reducible first
    | assumption | refine State.ite_kept (fun _ => ?_) (fun _ => ?_) | apply opRauClear_kept | apply opSeal_kept

theorem opRauClearDone_kept (h : Kept s t) (k : Nat) : Kept s (opRauClearDone k t) := by
  unfold opRauClearDone
  repeat' with_reducible first
    | assumption | refine State.ite_kept (fun _ => ?_) (fun _ => ?_) | apply State.put_kept

theorem opRauSealDone_kept (h : Kept s t) (k : Nat) : Kept s (opRauSealDone k t) := by
  unfold opRauSealDone
  repeat' first
    | with_reducible first | assumption | refine State.ite_kept (fun _ => ?_) (fun _ => ?_) | apply State.each_kept | apply State.put_kept | apply State.rauFinal_kept | apply State.rauWrite_kept
    | (intro x; refine (show Kept s x → _ from ?_) ?_; (on_goal 1 => clear_value x; intro hx); (on_goal 2 => subst x))
    | (intro x; clear_value x)
    | lift_lets
    | intro _

theorem State.cellFail_kept (h : Kept s t) (k : Nat) (x : BitVec 24) (y : BitVec 24) : Kept s (State.cellFail t k x y) := by
  unfold State.cellFail
  repeat' first
    | with_reducible first | assumption | refine State.ite_kept (fun _ => ?_) (fun _ => ?_) | apply State.count_kept | apply State.put_kept | apply State.rauFinal_kept | apply State.setRau_kept
    | (intro x; refine (show Kept s x → _ from ?_) ?_; (on_goal 1 => clear_value x; intro hx); (on_goal 2 => subst x))
    | (intro x; clear_value x)
    | lift_lets
    | refine Kept.snd (by with_reducible assumption) ?_
    | refine KeptO.use (by with_reducible assumption) ?_
    | refine KeptP.use (by with_reducible assumption) ?_
    | split

theorem State.rauSet_kept (h : Kept s t) (p : Path) (k : Nat) (ok : Bool) (f : State → State) (_ : ∀ u, Kept s u → Kept s (f u)) : Kept s (State.rauSet t p k ok f) := by
  unfold State.rauSet
  repeat' first
    | with_reducible first | assumption | refine State.ite_kept (fun _ => ?_) (fun _ => ?_) | apply State.rauErr_kept
    | intro _
    | dsimp only
    | solve_by_elim

/-! Machine/FailCap.lean -/

theorem State.vecReach_kept (h : Kept s t) (n : Nat) (vcyc : BitVec 40) : Kept s (State.vecReach t n vcyc) := by
  unfold State.vecReach
  repeat' with_reducible first
    | assumption | apply State.vecTo_kept

theorem State.bmpLose_kept (h : Kept s t) (n : Nat) (st : Nat) (full : Bool) : Kept s (State.bmpLose t n st full) := by
  unfold State.bmpLose
  repeat' first
    | with_reducible first | assumption | apply State.count_kept | apply State.iff_kept | apply State.put_kept
    | intro _

theorem State.bmpPush_kept (h : Kept s t) (n : Nat) (u : BmpUpd) : Kept s (State.bmpPush t n u) := by
  unfold State.bmpPush
  repeat' first
    | with_reducible first | assumption | refine State.ite_kept (fun _ => ?_) (fun _ => ?_) | apply State.bmpLose_kept | apply State.modPe_kept
    | (intro x; refine (show Kept s x → _ from ?_) ?_; (on_goal 1 => clear_value x; intro hx); (on_goal 2 => subst x))
    | (intro x; clear_value x)
    | lift_lets
    | intro _
    | refine Kept.snd (by with_reducible assumption) ?_
    | refine KeptO.use (by with_reducible assumption) ?_
    | refine KeptP.use (by with_reducible assumption) ?_
    | split

theorem State.bmpFail_kept (h : Kept s t) (n : Nat) (st : Fin 4) (x : BitVec 24) (y : BitVec 24) (m : BitVec 16) : Kept s (State.bmpFail t n st x y m) := by
  unfold State.bmpFail
  repeat' first
    | with_reducible first | assumption | refine State.ite_kept (fun _ => ?_) (fun _ => ?_) | apply State.bmpPush_kept | apply State.count_kept | refine foldl_kept ?_ ?_
    | (intro x; refine (show Kept s x → _ from ?_) ?_; (on_goal 1 => clear_value x; intro hx); (on_goal 2 => subst x))
    | (intro x; clear_value x)
    | lift_lets
    | intro _
    | refine Kept.snd (by with_reducible assumption) ?_
    | refine KeptO.use (by with_reducible assumption) ?_
    | refine KeptP.use (by with_reducible assumption) ?_
    | split

theorem State.failSite_kept (h : Kept s t) (n : Nat) (i : Nat) (v : VecIssue) (st : Fin 4) (m : BitVec 16) (uimask : BitVec 16) (lo : BitVec 16) (hi : BitVec 16) : Kept s (State.failSite t n i v st m uimask lo hi) := by
  unfold State.failSite
  repeat' first
    | with_reducible first | assumption | apply State.bmpFail_kept | apply State.cellFail_kept | apply State.count_kept | apply State.iff_kept | apply State.modPe_kept | apply State.put_kept | apply State.ringPush_kept
    | (intro x; refine (show Kept s x → _ from ?_) ?_; (on_goal 1 => clear_value x; intro hx); (on_goal 2 => subst x))
    | (intro x; clear_value x)
    | lift_lets
    | intro _

theorem opFail_kept (h : Kept s t) (n : Nat) (vcyc : BitVec 40) (uis : List (BitVec 16)) (lo : BitVec 16) (hi : BitVec 16) : Kept s (opFail n vcyc uis lo hi t) := by
  unfold opFail
  repeat' first
    | with_reducible first | assumption | refine State.ite_kept (fun _ => ?_) (fun _ => ?_) | apply State.advanceTo_kept | apply State.count_kept | apply State.each_kept | apply State.failSite_kept | apply State.iff_kept | apply State.vecReach_kept | refine foldl_kept ?_ ?_
    | (intro x; refine (show Kept s x → _ from ?_) ?_; (on_goal 1 => clear_value x; intro hx); (on_goal 2 => subst x))
    | (intro x; clear_value x)
    | lift_lets
    | intro _
    | refine Kept.snd (by with_reducible assumption) ?_
    | refine KeptO.use (by with_reducible assumption) ?_
    | refine KeptP.use (by with_reducible assumption) ?_
    | split

theorem opCapture_kept (h : Kept s t) (n : Nat) (vcyc : BitVec 40) (ui : Fin 16) (lo : BitVec 16) (hi : BitVec 16) : Kept s (opCapture n vcyc ui lo hi t) := by
  unfold opCapture
  repeat' first
    | with_reducible first | assumption | refine State.ite_kept (fun _ => ?_) (fun _ => ?_) | apply State.advanceTo_kept | apply State.ringPush_kept | apply State.vecReach_kept
    | (intro x; refine (show Kept s x → _ from ?_) ?_; (on_goal 1 => clear_value x; intro hx); (on_goal 2 => subst x))
    | (intro x; clear_value x)
    | lift_lets
    | intro _
    | refine Kept.snd (by with_reducible assumption) ?_
    | refine KeptO.use (by with_reducible assumption) ?_
    | refine KeptP.use (by with_reducible assumption) ?_
    | split

theorem State.ringPop_kept (h : Kept s t) (n : Nat) : Kept s (State.ringPop t n) := by
  unfold State.ringPop
  repeat' with_reducible first
    | assumption | apply State.modPe_kept

theorem State.modRing_kept (h : Kept s t) (n : Nat) (f : Stream → Stream) : Kept s (State.modRing t n f) := by
  unfold State.modRing
  repeat' with_reducible first
    | assumption | apply State.modPe_kept

theorem opFailRecordWrite_kept (h : Kept s t) (n : Nat) (ecc : Ecc) : Kept s (opFailRecordWrite n ecc t) := by
  unfold opFailRecordWrite
  repeat' first
    | with_reducible first | assumption | refine State.ite_kept (fun _ => ?_) (fun _ => ?_) | apply State.engFault_kept | apply State.iff_kept | apply State.modRing_kept | apply State.ringLose_kept | apply State.ringPlace_kept | apply State.ringPop_kept
    | (intro x; refine (show Kept s x → _ from ?_) ?_; (on_goal 1 => clear_value x; intro hx); (on_goal 2 => subst x))
    | (intro x; clear_value x)
    | lift_lets
    | intro _
    | refine Kept.snd (by with_reducible assumption) ?_
    | refine KeptO.use (by with_reducible assumption) ?_
    | refine KeptP.use (by with_reducible assumption) ?_
    | split

theorem opBitmapUpdate_kept (h : Kept s t) (n : Nat) (ecc : HbmEcc) : Kept s (opBitmapUpdate n ecc t) := by
  unfold opBitmapUpdate
  repeat' first
    | with_reducible first | assumption | refine State.ite_kept (fun _ => ?_) (fun _ => ?_) | apply State.bmpLose_kept | apply State.hbmPutW_kept | apply State.hbmRead_kept | apply State.iff_kept | apply State.modPe_kept | apply State.put_kept | apply State.raise_kept
    | (intro x; refine (show Kept s x → _ from ?_) ?_; (on_goal 1 => clear_value x; intro hx); (on_goal 2 => subst x))
    | (intro x; clear_value x)
    | lift_lets
    | intro _
    | refine Kept.snd (by with_reducible assumption) ?_
    | refine KeptO.use (by with_reducible assumption) ?_
    | refine KeptP.use (by with_reducible assumption) ?_
    | split

theorem State.fcapErr_kept (h : Kept s t) (p : Path) (n : Nat) : Kept s (State.fcapErr t p n) := by
  unfold State.fcapErr
  repeat' with_reducible first
    | assumption | apply State.cfgErr_kept | apply State.put_kept

theorem State.ringReset_kept (h : Kept s t) (p : Path) (n : Nat) : Kept s (State.ringReset t p n) := by
  unfold State.ringReset
  repeat' with_reducible first
    | assumption | refine State.ite_kept (fun _ => ?_) (fun _ => ?_) | apply State.cfgErr_kept | apply State.fcapErr_kept | apply State.modPe_kept | apply State.modRing_kept | apply State.ringBeacon_kept | apply State.wr_kept

theorem State.fringSizeSet_kept (h : Kept s t) (p : Path) (n : Nat) (v : Word) : Kept s (State.fringSizeSet t p n v) := by
  unfold State.fringSizeSet
  repeat' with_reducible first
    | assumption | refine State.ite_kept (fun _ => ?_) (fun _ => ?_) | apply State.fcapErr_kept | apply State.wr_kept

theorem State.fringRdSet_kept (h : Kept s t) (p : Path) (n : Nat) (v : Word) : Kept s (State.fringRdSet t p n v) := by
  unfold State.fringRdSet
  repeat' with_reducible first
    | assumption | refine State.ite_kept (fun _ => ?_) (fun _ => ?_) | apply State.cfgErr_kept | apply State.wr_kept

theorem opBmpClear_kept (h : Kept s t) (p : Path) (n : Nat) (st : Nat) : Kept s (opBmpClear p n st t) := by
  unfold opBmpClear
  repeat' with_reducible first
    | assumption | refine State.ite_kept (fun _ => ?_) (fun _ => ?_) | apply State.fcapErr_kept | apply State.hbmZero_kept | apply State.put_kept

/-! Machine/Pin.lean -/

theorem opTrip_kept (h : Kept s t) (n : Nat) (l : Nat) (i : Nat) : Kept s (opTrip n l i t) := by
  unfold opTrip
  repeat' with_reducible first
    | assumption | apply State.put_kept | apply State.raise_kept

theorem State.pinClear_kept (h : Kept s t) (n : Nat) (l : Nat) (v : Word) : Kept s (State.pinClear t n l v) := by
  unfold State.pinClear
  repeat' with_reducible first
    | assumption | apply State.wr_kept

theorem State.laneCfgSet_kept (h : Kept s t) (p : Path) (n : Nat) (l : Nat) (v : Word) : Kept s (State.laneCfgSet t p n l v) := by
  unfold State.laneCfgSet
  repeat' with_reducible first
    | assumption | refine State.ite_kept (fun _ => ?_) (fun _ => ?_) | apply State.cfgErr_kept | apply State.wr_kept

theorem State.fmtCmd_kept (h : Kept s t) (p : Path) (n : Nat) (v : Word) : Kept s (State.fmtCmd t p n v) := by
  unfold State.fmtCmd
  repeat' with_reducible first
    | assumption | refine State.ite_kept (fun _ => ?_) (fun _ => ?_) | apply State.cfgErr_kept | apply State.modPe_kept | apply State.put_kept

theorem State.fsCommit_kept (h : Kept s t) (n k : Nat) (r : List Word64) : Kept s (t.fsCommit n k r) := by
  unfold State.fsCommit
  exact State.each_kept (State.modPe_kept h _ _) (fun u w hu => (State.wr64_kept hu _ _).same rfl rfl)

theorem State.fmtResult_kept (h : Kept s t) (n : Nat) (t_ : Nat) (lane : Nat) (edge : Nat) (rule : Nat) : Kept s (State.fmtResult t n t_ lane edge rule) := by
  unfold State.fmtResult
  repeat' with_reducible first
    | assumption | apply State.wr_kept

theorem opFmtCmdDone_kept (h : Kept s t) (n : Nat) : Kept s (opFmtCmdDone n t) := by
  unfold opFmtCmdDone
  repeat' first
    | with_reducible first | assumption | refine State.ite_kept (fun _ => ?_) (fun _ => ?_) | apply State.each_kept | apply State.engFault_kept | apply State.fmtResult_kept | apply State.fsCommit_kept | apply State.fsError_kept | apply State.modPe_kept | apply State.put_kept | apply State.wr64_kept
    | (intro x; refine (show Kept s x → _ from ?_) ?_; (on_goal 1 => clear_value x; intro hx); (on_goal 2 => subst x))
    | (intro x; clear_value x)
    | lift_lets
    | intro _
    | refine Kept.snd (by with_reducible assumption) ?_
    | refine KeptO.use (by with_reducible assumption) ?_
    | refine KeptP.use (by with_reducible assumption) ?_
    | split

theorem State.stageSet_kept (h : Kept s t) (p : Path) (n : Nat) (f : State → State) (_ : ∀ u, Kept s u → Kept s (f u)) : Kept s (State.stageSet t p n f) := by
  unfold State.stageSet
  repeat' first
    | with_reducible first | assumption | refine State.ite_kept (fun _ => ?_) (fun _ => ?_) | apply State.cfgErr_kept
    | intro _
    | dsimp only
    | solve_by_elim

theorem State.fsRead_kept (h : Kept s t) (n : Nat) (w : Nat) : Kept s (State.fsRead t n w).2 := by
  unfold State.fsRead
  repeat' first
    | with_reducible first | assumption | apply State.engFault_kept | apply State.fsError_kept | apply State.iff_kept
    | (intro x; refine (show Kept s x → _ from ?_) ?_; (on_goal 1 => clear_value x; intro hx); (on_goal 2 => subst x))
    | (intro x; clear_value x)
    | lift_lets
    | intro _

/-! Machine/Card.lean -/

theorem State.cardFault_kept (h : Kept s t) (lvl : Nat) : Kept s (State.cardFault t lvl) := by
  unfold State.cardFault
  repeat' with_reducible first
    | assumption | apply State.raise_kept

theorem opCardGo_kept (h : Kept s t) (p : Path) : Kept s (opCardGo p t) := by
  unfold opCardGo
  repeat' with_reducible first
    | assumption | refine State.ite_kept (fun _ => ?_) (fun _ => ?_) | apply State.cfgErr_kept | apply State.modCard_kept | apply State.put_kept

theorem opCardTransactionDone_kept (h : Kept s t) (miso : List Bool) : Kept s (opCardTransactionDone miso t) := by
  unfold opCardTransactionDone
  repeat' first
    | with_reducible first | assumption | refine State.ite_kept (fun _ => ?_) (fun _ => ?_) | apply State.each_kept | apply State.emit_kept | apply State.irq_kept | apply State.modCard_kept | apply State.put_kept | apply KeptO.getD
    | (intro x; refine (show Kept s x → _ from ?_) ?_; (on_goal 1 => clear_value x; intro hx); (on_goal 2 => subst x))
    | (intro x; clear_value x)
    | lift_lets
    | intro _

theorem State.cirBusy_kept (h : Kept s t)  : Kept s (State.cirBusy t) := by
  unfold State.cirBusy
  repeat' with_reducible first
    | assumption | apply State.put_kept

theorem State.lifeBit_kept (h : Kept s t) (i : Nat) (lvl : Nat) (now : Bool) (load : Bool) : Kept s (State.lifeBit t i lvl now load) := by
  unfold State.lifeBit
  repeat' first
    | with_reducible first | assumption | apply State.cardFault_kept | apply State.iff_kept | apply State.irq_kept | apply State.put_kept
    | (intro x; refine (show Kept s x → _ from ?_) ?_; (on_goal 1 => clear_value x; intro hx); (on_goal 2 => subst x))
    | (intro x; clear_value x)
    | lift_lets
    | intro _

theorem State.lifeCheck_kept (h : Kept s t) (load : Bool) : Kept s (State.lifeCheck t load) := by
  unfold State.lifeCheck
  repeat' with_reducible first
    | assumption | apply State.lifeBit_kept

theorem opCirLoad_kept (h : Kept s t)  : Kept s (opCirLoad t) := by
  unfold opCirLoad
  repeat' with_reducible first
    | assumption | apply State.cirBusy_kept | apply State.modCard_kept

theorem opCirLoadDone_kept (h : Kept s t) (a : List Byte) (b : List Byte) : Kept s (opCirLoadDone a b t) := by
  unfold opCirLoadDone
  repeat' first
    | with_reducible first | assumption | refine State.ite_kept (fun _ => ?_) (fun _ => ?_) | apply State.cardFault_kept | apply State.cirBusy_kept | apply State.countN_kept | apply State.iff_kept | apply State.irq_kept | apply State.lifeCheck_kept | apply State.modCard_kept | apply State.put_kept | apply State.wr_kept | apply State.wr64_kept | apply State.wrf_kept
    | (intro x; refine (show Kept s x → _ from ?_) ?_; (on_goal 1 => clear_value x; intro hx); (on_goal 2 => subst x))
    | (intro x; clear_value x)
    | lift_lets
    | intro _
    | refine Kept.snd (by with_reducible assumption) ?_
    | refine KeptO.use (by with_reducible assumption) ?_
    | refine KeptP.use (by with_reducible assumption) ?_
    | split

theorem State.touchdown_kept (h : Kept s t)  : Kept s (State.touchdown t) := by
  unfold State.touchdown
  repeat' first
    | with_reducible first | assumption | refine State.ite_kept (fun _ => ?_) (fun _ => ?_) | apply State.cirBusy_kept | apply State.count_kept | apply State.iff_kept | apply State.lifeCheck_kept | apply State.modCard_kept | apply State.wrf_kept
    | (intro x; refine (show Kept s x → _ from ?_) ?_; (on_goal 1 => clear_value x; intro hx); (on_goal 2 => subst x))
    | (intro x; clear_value x)
    | lift_lets
    | intro _

theorem opTouchdown_kept (h : Kept s t)  : Kept s (opTouchdown t) := by
  unfold opTouchdown
  repeat' first
    | with_reducible first | assumption | refine State.ite_kept (fun _ => ?_) (fun _ => ?_) | apply State.iff_kept | apply State.modSeas_kept | apply State.touchdown_kept
    | (intro x; refine (show Kept s x → _ from ?_) ?_; (on_goal 1 => clear_value x; intro hx); (on_goal 2 => subst x))
    | (intro x; clear_value x)
    | lift_lets
    | intro _

theorem opCirSave_kept (h : Kept s t)  : Kept s (opCirSave t) := by
  unfold opCirSave
  repeat' first
    | with_reducible first | assumption | apply State.cirBusy_kept | apply State.iff_kept | apply State.modCard_kept
    | intro _

theorem State.cirWrite_kept (h : Kept s t)  : Kept s (State.cirWrite t) := by
  unfold State.cirWrite
  repeat' with_reducible first
    | assumption | apply State.emit_kept

theorem opCirWriteback_kept (h : Kept s t)  : Kept s (opCirWriteback t) := by
  unfold opCirWriteback
  repeat' with_reducible first
    | assumption | refine State.ite_kept (fun _ => ?_) (fun _ => ?_) | apply State.cirBusy_kept | apply State.cirWrite_kept | apply State.modCard_kept

theorem State.cirFlip_kept (h : Kept s t)  : Kept s (State.cirFlip t) := by
  unfold State.cirFlip
  repeat' with_reducible first
    | assumption | apply State.modCard_kept | apply State.put_kept

theorem opCirWritebackDone_kept (h : Kept s t) (good : Bool) : Kept s (opCirWritebackDone good t) := by
  unfold opCirWritebackDone
  repeat' with_reducible first
    | assumption | refine State.ite_kept (fun _ => ?_) (fun _ => ?_) | apply State.cardFault_kept | apply State.cirBusy_kept | apply State.cirFlip_kept | apply State.irq_kept | apply State.modCard_kept | apply State.put_kept

theorem State.cirSeason_kept (h : Kept s t)  : Kept s (State.cirSeason t) := by
  unfold State.cirSeason
  repeat' with_reducible first
    | assumption | refine State.ite_kept (fun _ => ?_) (fun _ => ?_) | apply State.cirFlip_kept | apply State.cirWrite_kept

theorem State.xipNext_kept (h : Kept s t)  : Kept s (State.xipNext t) := by
  unfold State.xipNext
  repeat' first
    | with_reducible first | assumption | refine State.ite_kept (fun _ => ?_) (fun _ => ?_) | apply State.emit_kept | apply State.modCard_kept
    | (intro x; refine (show Kept s x → _ from ?_) ?_; (on_goal 1 => clear_value x; intro hx); (on_goal 2 => subst x))
    | (intro x; clear_value x)
    | lift_lets
    | intro _
    | refine Kept.snd (by with_reducible assumption) ?_
    | refine KeptO.use (by with_reducible assumption) ?_
    | refine KeptP.use (by with_reducible assumption) ?_
    | split

theorem State.xipWrite_kept (h : Kept s t) (p : Path) (w : Nat) (v : Word) : Kept s (State.xipWrite t p w v) := by
  unfold State.xipWrite
  repeat' with_reducible first
    | assumption | refine State.ite_kept (fun _ => ?_) (fun _ => ?_) | apply State.cfgErr_kept | apply State.modCard_kept | apply State.put_kept | apply State.raise_kept | apply State.xipNext_kept

theorem State.xipErase_kept (h : Kept s t) (p : Path) (v : Word) : Kept s (State.xipErase t p v) := by
  unfold State.xipErase
  repeat' with_reducible first
    | assumption | refine State.ite_kept (fun _ => ?_) (fun _ => ?_) | apply State.cfgErr_kept | apply State.modCard_kept | apply State.put_kept | apply State.raise_kept | apply State.xipNext_kept

theorem opXipRead_kept (h : Kept s t) (p : Path) (w : Nat) (flash : Word) : Kept s (opXipRead p w flash t) := by
  unfold opXipRead
  repeat' first
    | with_reducible first | assumption | refine State.ite_kept (fun _ => ?_) (fun _ => ?_) | apply State.emit_kept | apply State.hostRead_kept
    | intro _

theorem opXipStatusPoll_kept (h : Kept s t) (wip : Bool) : Kept s (opXipStatusPoll wip t) := by
  unfold opXipStatusPoll
  repeat' with_reducible first
    | assumption | refine State.ite_kept (fun _ => ?_) (fun _ => ?_) | apply State.emit_kept | apply State.modCard_kept | apply State.xipNext_kept

theorem opXipTimeout_kept (h : Kept s t)  : Kept s (opXipTimeout t) := by
  unfold opXipTimeout
  repeat' first
    | with_reducible first | assumption | refine State.ite_kept (fun _ => ?_) (fun _ => ?_) | apply State.advanceTo_kept | apply State.cardFault_kept | apply State.irq_kept | apply State.modCard_kept | apply State.put_kept
    | (intro x; refine (show Kept s x → _ from ?_) ?_; (on_goal 1 => clear_value x; intro hx); (on_goal 2 => subst x))
    | (intro x; clear_value x)
    | lift_lets
    | intro _
    | refine Kept.snd (by with_reducible assumption) ?_
    | refine KeptO.use (by with_reducible assumption) ?_
    | refine KeptP.use (by with_reducible assumption) ?_
    | split

theorem State.cardCtrl_kept (h : Kept s t) (p : Path) (v : Word) : Kept s (State.cardCtrl t p v) := by
  unfold State.cardCtrl
  repeat' first
    | with_reducible first | assumption | apply State.iff_kept | apply opCardGo_kept | apply opCirLoad_kept | apply opCirSave_kept | apply State.touchdown_kept
    | intro _

/-! Machine/Chan.lean -/

theorem State.cplWrite_kept (h : Kept s t) (pl : DPlace) (e : Nat) (resid : Nat) : Kept s (State.cplWrite t pl e resid) := by
  unfold State.cplWrite
  repeat' first
    | with_reducible first | assumption | refine State.ite_kept (fun _ => ?_) (fun _ => ?_) | apply State.emit_kept | apply State.hbmPutW_kept | apply State.host_kept | apply State.wr64_kept
    | (intro x; refine (show Kept s x → _ from ?_) ?_; (on_goal 1 => clear_value x; intro hx); (on_goal 2 => subst x))
    | (intro x; clear_value x)
    | lift_lets
    | refine Kept.snd (by with_reducible assumption) ?_
    | refine KeptO.use (by with_reducible assumption) ?_
    | refine KeptP.use (by with_reducible assumption) ?_
    | split

theorem State.chIrq_kept (h : Kept s t) (k : Nat) : Kept s (State.chIrq t k) := by
  unfold State.chIrq
  repeat' with_reducible first
    | assumption | apply State.irq_kept

theorem State.descEnd_kept (h : Kept s t) (k : Nat) (e : Nat) (resid : Nat) : Kept s (State.descEnd t k e resid) := by
  unfold State.descEnd
  repeat' first
    | with_reducible first | assumption | apply State.cplWrite_kept | apply State.iff_kept
    | (intro x; refine (show Kept s x → _ from ?_) ?_; (on_goal 1 => clear_value x; intro hx); (on_goal 2 => subst x))
    | (intro x; clear_value x)
    | lift_lets
    | intro _
    | refine Kept.snd (by with_reducible assumption) ?_
    | refine KeptO.use (by with_reducible assumption) ?_
    | refine KeptP.use (by with_reducible assumption) ?_
    | split

theorem State.chanEnd_kept (h : Kept s t) (k : Nat) (e : Nat) (resid : Nat) (st : ChSt) : Kept s (State.chanEnd t k e resid st) := by
  unfold State.chanEnd
  repeat' first
    | with_reducible first | assumption | apply State.setChan_kept | apply State.wr_kept | apply State.wr64_kept | apply State.wrf_kept
    | (intro x; refine (show Kept s x → _ from ?_) ?_; (on_goal 1 => clear_value x; intro hx); (on_goal 2 => subst x))
    | (intro x; clear_value x)
    | lift_lets
    | refine Kept.snd (by with_reducible assumption) ?_
    | refine KeptO.use (by with_reducible assumption) ?_
    | refine KeptP.use (by with_reducible assumption) ?_
    | split

theorem State.chanFail_kept (h : Kept s t) (k : Nat) (e : Nat) (resid : Nat) (st : ChSt) : Kept s (State.chanFail t k e resid st) := by
  unfold State.chanFail
  repeat' with_reducible first
    | assumption | apply State.chIrq_kept | apply State.chanEnd_kept | apply State.descEnd_kept

theorem State.dmaHalt_kept (h : Kept s t) (d : Nat) : Kept s (State.dmaHalt t d) := by
  unfold State.dmaHalt
  repeat' first
    | with_reducible first | assumption | refine State.ite_kept (fun _ => ?_) (fun _ => ?_) | apply State.chanFail_kept | apply State.each_kept | apply State.idle_kept | apply State.put_kept
    | intro _

theorem State.dmaBusErr_kept (h : Kept s t) (d : Nat) (cause : Nat) (addr : Word64) (space : Nat) (wr : Bool) (reads : BitVec 16) : Kept s (State.dmaBusErr t d cause addr space wr reads) := by
  unfold State.dmaBusErr
  repeat' with_reducible first
    | assumption | refine State.ite_kept (fun _ => ?_) (fun _ => ?_) | apply State.dmaHalt_kept | apply State.idle_kept | apply State.raise_kept | apply State.wr_kept | apply State.wr64_kept

theorem opGo_kept (h : Kept s t) (p : Path) (d : Nat) (c : Nat) : Kept s (opGo p d c t) := by
  unfold opGo
  repeat' with_reducible first
    | assumption | refine State.ite_kept (fun _ => ?_) (fun _ => ?_) | apply State.cfgErr_kept | apply State.idle_kept | apply State.setChan_kept

theorem opAbort_kept (h : Kept s t) (k : Nat) : Kept s (opAbort k t) := by
  unfold opAbort
  repeat' first
    | with_reducible first | assumption | apply State.chanFail_kept | apply State.idle_kept | apply State.setChan_kept
    | (intro x; refine (show Kept s x → _ from ?_) ?_; (on_goal 1 => clear_value x; intro hx); (on_goal 2 => subst x))
    | (intro x; clear_value x)
    | lift_lets
    | refine Kept.snd (by with_reducible assumption) ?_
    | refine KeptO.use (by with_reducible assumption) ?_
    | refine KeptP.use (by with_reducible assumption) ?_
    | split

theorem State.chCtrl_kept (h : Kept s t) (p : Path) (d : Nat) (c : Nat) (v : Word) : Kept s (State.chCtrl t p d c v) := by
  unfold State.chCtrl
  repeat' with_reducible first
    | assumption | refine State.ite_kept (fun _ => ?_) (fun _ => ?_) | apply opAbort_kept | apply opGo_kept

theorem opDmaReset_kept (h : Kept s t) (p : Path) (d : Nat) : Kept s (opDmaReset p d t) := by
  unfold opDmaReset
  repeat' first
    | with_reducible first | assumption | refine State.ite_kept (fun _ => ?_) (fun _ => ?_) | apply State.cfgErr_kept | apply State.each_kept | apply State.idle_kept | apply State.put_kept | apply State.setChan_kept
    | (intro x; refine (show Kept s x → _ from ?_) ?_; (on_goal 1 => clear_value x; intro hx); (on_goal 2 => subst x))
    | (intro x; clear_value x)
    | lift_lets
    | intro _

theorem opDmakAccept_kept (h : Kept s t) (e : Fin 96) (tag : Nat) : Kept s (opDmakAccept e tag t) := by
  unfold opDmakAccept
  repeat' first
    | with_reducible first | assumption | apply State.iff_kept | apply State.modEng_kept | apply State.setChan_kept
    | (intro x; refine (show Kept s x → _ from ?_) ?_; (on_goal 1 => clear_value x; intro hx); (on_goal 2 => subst x))
    | (intro x; clear_value x)
    | lift_lets
    | intro _
    | refine Kept.snd (by with_reducible assumption) ?_
    | refine KeptO.use (by with_reducible assumption) ?_
    | refine KeptP.use (by with_reducible assumption) ?_
    | split

theorem opChannelService_kept (h : Kept s t) (d : Nat) : Kept s (opChannelService d t) := by
  unfold opChannelService
  repeat' first
    | with_reducible first | assumption | refine State.ite_kept (fun _ => ?_) (fun _ => ?_) | apply State.setChan_kept
    | (intro x; refine (show Kept s x → _ from ?_) ?_; (on_goal 1 => clear_value x; intro hx); (on_goal 2 => subst x))
    | (intro x; clear_value x)
    | lift_lets
    | intro _
    | refine Kept.snd (by with_reducible assumption) ?_
    | refine KeptO.use (by with_reducible assumption) ?_
    | refine KeptP.use (by with_reducible assumption) ?_
    | split

theorem opPreqAssert_kept (h : Kept s t) (k : Nat) : Kept s (opPreqAssert k t) := by
  unfold opPreqAssert
  repeat' with_reducible first
    | assumption | refine State.ite_kept (fun _ => ?_) (fun _ => ?_) | apply State.setChan_kept

theorem State.descRead_kept (h : Kept s t) (x : Chan) (host : BitVec 256) (ecc : HbmEcc) : Kept s (State.descRead t x host ecc).2 := by
  unfold State.descRead
  repeat' first
    | with_reducible first | assumption | refine State.ite_kept (fun _ => ?_) (fun _ => ?_) | apply State.hbmRead_kept | apply State.host_kept | apply State.raise_kept
    | (intro x; refine (show Kept s x → _ from ?_) ?_; (on_goal 1 => clear_value x; intro hx); (on_goal 2 => subst x))
    | (intro x; clear_value x)
    | lift_lets
    | refine Kept.snd (by with_reducible assumption) ?_
    | refine KeptO.use (by with_reducible assumption) ?_
    | refine KeptP.use (by with_reducible assumption) ?_
    | split

theorem State.descCheck_kept (h : Kept s t) (k : Nat) (q : BitVec 256) : Kept s (State.descCheck t k q) := by
  unfold State.descCheck
  repeat' with_reducible first
    | assumption | refine State.ite_kept (fun _ => ?_) (fun _ => ?_) | apply State.chanFail_kept | apply State.idle_kept | apply State.modChan_kept | apply State.wrf_kept

theorem opDescriptorTake_kept (h : Kept s t) (d c : Nat) (host : BitVec 256) (ecc : HbmEcc) :
    Kept s (opDescriptorTake d c host ecc t) := by
  unfold opDescriptorTake
  dsimp only
  refine State.ite_kept (fun _ => h) (fun _ => State.ite_kept (fun _ => State.chanFail_kept h ..) (fun _ => ?_))
  split
  · exact State.dmaBusErr_kept h ..
  · have k := State.setChan_kept (State.descRead_kept h (t.chan (chKey d c)) host ecc) (chKey d c)
    split
    · exact State.chanFail_kept (State.wrf_kept (k _) ..) ..
    · exact State.descCheck_kept (k _) ..

theorem State.descDone_kept (h : Kept s t) (k : Nat) (q : BitVec 256) : Kept s (State.descDone t k q) := by
  unfold State.descDone
  repeat' first
    | with_reducible first | assumption | refine State.ite_kept (fun _ => ?_) (fun _ => ?_) | apply State.chIrq_kept | apply State.chanEnd_kept | apply State.count_kept | apply State.descEnd_kept | apply State.dmaBusErr_kept | apply State.host_kept | apply State.idle_kept | apply State.iff_kept | apply State.setChan_kept
    | (intro x; refine (show Kept s x → _ from ?_) ?_; (on_goal 1 => clear_value x; intro hx); (on_goal 2 => subst x))
    | (intro x; clear_value x)
    | lift_lets
    | intro _
    | refine Kept.snd (by with_reducible assumption) ?_
    | refine KeptO.use (by with_reducible assumption) ?_
    | refine KeptP.use (by with_reducible assumption) ?_
    | split

theorem State.burstDone_kept (h : Kept s t) (k : Nat) (n : Nat) (q : BitVec 256) : Kept s (State.burstDone t k n q) := by
  unfold State.burstDone
  repeat' with_reducible first
    | assumption | refine State.ite_kept (fun _ => ?_) (fun _ => ?_) | apply State.chanFail_kept | apply State.descDone_kept | apply State.idle_kept | apply State.modChan_kept | apply State.setChan_kept

/-! Machine/Link.lean -/

theorem State.linkFault_kept (h : Kept s t) (p : Nat) (lvl : Nat) : Kept s (State.linkFault t p lvl) := by
  unfold State.linkFault
  repeat' with_reducible first
    | assumption | apply State.raise_kept

theorem State.setNstate_kept (h : Kept s t) (n : NState) : Kept s (State.setNstate t n) := by
  unfold State.setNstate
  repeat' first
    | with_reducible first | assumption | refine State.ite_kept (fun _ => ?_) (fun _ => ?_) | apply State.iff_kept | apply State.irq_kept | apply State.modDec_kept
    | intro _

theorem State.detach_kept (h : Kept s t)  : Kept s (State.detach t) := by
  unfold State.detach
  repeat' with_reducible first
    | assumption | refine State.ite_kept (fun _ => ?_) (fun _ => ?_) | apply State.linkFault_kept | apply State.setNstate_kept

theorem State.joinRefuse_kept (h : Kept s t) (p : Path) (cause : Nat) : Kept s (State.joinRefuse t p cause) := by
  unfold State.joinRefuse
  repeat' with_reducible first
    | assumption | apply State.cfgErr_kept | apply State.put_kept | apply State.setNstate_kept | apply State.wrf_kept

theorem State.setPort_kept (h : Kept s t) (p : Nat) (st : BitVec 3) : Kept s (State.setPort t p st) := by
  unfold State.setPort
  repeat' first
    | with_reducible first | assumption | refine State.ite_kept (fun _ => ?_) (fun _ => ?_) | apply State.detach_kept | apply State.iff_kept | apply State.irq_kept | apply State.joinRefuse_kept | apply State.setKl_kept
    | (intro x; refine (show Kept s x → _ from ?_) ?_; (on_goal 1 => clear_value x; intro hx); (on_goal 2 => subst x))
    | (intro x; clear_value x)
    | lift_lets
    | intro _

theorem State.portsRefresh_kept (h : Kept s t)  : Kept s (State.portsRefresh t) := by
  unfold State.portsRefresh
  repeat' first
    | with_reducible first | assumption | refine State.ite_kept (fun _ => ?_) (fun _ => ?_) | apply State.each_kept | apply State.setPort_kept
    | intro _

theorem opJoin_kept (h : Kept s t) (p : Path) : Kept s (opJoin p t) := by
  unfold opJoin
  repeat' with_reducible first
    | assumption | refine State.ite_kept (fun _ => ?_) (fun _ => ?_) | apply State.joinRefuse_kept | apply State.setNstate_kept

theorem State.setPhase_kept (h : Kept s t)  : Kept s (State.setPhase t) := by
  unfold State.setPhase
  repeat' with_reducible first
    | assumption | refine State.ite_kept (fun _ => ?_) (fun _ => ?_) | apply State.modKl_kept | apply State.wr_kept

theorem opRecal_kept (h : Kept s t) (p : Path) : Kept s (opRecal p t) := by
  unfold opRecal
  repeat' with_reducible first
    | assumption | refine State.ite_kept (fun _ => ?_) (fun _ => ?_) | apply State.cfgErr_kept | apply State.setPhase_kept

theorem opRetrain_kept (h : Kept s t)  : Kept s (opRetrain t) := by
  unfold opRetrain
  repeat' first
    | with_reducible first | assumption | refine State.ite_kept (fun _ => ?_) (fun _ => ?_) | apply State.each_kept | apply State.setPort_kept
    | intro _

theorem State.decCtrl_kept (h : Kept s t) (p : Path) (v : Word) : Kept s (State.decCtrl t p v) := by
  unfold State.decCtrl
  repeat' first
    | with_reducible first | assumption | refine State.ite_kept (fun _ => ?_) (fun _ => ?_) | apply State.iff_kept | apply opJoin_kept | apply opRecal_kept | apply opRetrain_kept | apply State.setNstate_kept
    | (intro x; refine (show Kept s x → _ from ?_) ?_; (on_goal 1 => clear_value x; intro hx); (on_goal 2 => subst x))
    | (intro x; clear_value x)
    | lift_lets
    | intro _

theorem State.joinDone_kept (h : Kept s t)  : Kept s (State.joinDone t) := by
  unfold State.joinDone
  repeat' with_reducible first
    | assumption | refine State.ite_kept (fun _ => ?_) (fun _ => ?_) | apply State.setNstate_kept | apply State.setPhase_kept

theorem State.frameFails_kept (h : Kept s t) (p : Nat) : Kept s (State.frameFails t p) := by
  unfold State.frameFails
  repeat' first
    | with_reducible first | assumption | refine State.ite_kept (fun _ => ?_) (fun _ => ?_) | apply State.advanceTo_kept | apply State.count_kept | apply State.iff_kept | apply State.linkFault_kept | apply State.modDec_kept | apply State.put_kept | apply State.setKl_kept | apply State.setPort_kept
    | (intro x; refine (show Kept s x → _ from ?_) ?_; (on_goal 1 => clear_value x; intro hx); (on_goal 2 => subst x))
    | (intro x; clear_value x)
    | lift_lets
    | intro _

theorem State.frameVerdicts_kept (h : Kept s t) (p : Nat) (f : BitVec 160) : Kept s (State.frameVerdicts t p f) := by
  unfold State.frameVerdicts
  repeat' with_reducible first
    | assumption | refine State.ite_kept (fun _ => ?_) (fun _ => ?_) | apply State.modDec_kept

theorem State.upJudge_kept (h : Kept s t) (f : BitVec 160) : Kept s (State.upJudge t f) := by
  unfold State.upJudge
  repeat' first
    | with_reducible first | assumption | refine State.ite_kept (fun _ => ?_) (fun _ => ?_) | apply State.detach_kept | apply State.iff_kept | apply State.joinRefuse_kept | apply State.modDec_kept
    | (intro x; refine (show Kept s x → _ from ?_) ?_; (on_goal 1 => clear_value x; intro hx); (on_goal 2 => subst x))
    | (intro x; clear_value x)
    | lift_lets
    | intro _

theorem State.frame_kept (h : Kept s t) (p : Nat) (t_ : Nat) (f : BitVec 160) (after : State → State) (_ : ∀ u, Kept s u → Kept s (after u)) : Kept s (State.frame t p t_ f after) := by
  unfold State.frame
  repeat' first
    | with_reducible first | assumption | refine State.ite_kept (fun _ => ?_) (fun _ => ?_) | apply State.advanceTo_kept | apply State.frameFails_kept | apply State.frameVerdicts_kept | apply State.iff_kept | apply State.modKl_kept | apply State.setKl_kept | apply State.setPort_kept | apply State.upJudge_kept
    | (intro x; refine (show Kept s x → _ from ?_) ?_; (on_goal 1 => clear_value x; intro hx); (on_goal 2 => subst x))
    | (intro x; clear_value x)
    | lift_lets
    | intro _
    | refine Kept.snd (by with_reducible assumption) ?_
    | refine KeptO.use (by with_reducible assumption) ?_
    | refine KeptP.use (by with_reducible assumption) ?_
    | split
    | dsimp only
    | solve_by_elim

theorem opAlignDone_kept (h : Kept s t) (p : Nat) : Kept s (opAlignDone p t) := by
  unfold opAlignDone
  repeat' with_reducible first
    | assumption | refine State.ite_kept (fun _ => ?_) (fun _ => ?_) | apply State.setPort_kept

theorem State.timeMismatch_kept (h : Kept s t)  : Kept s (State.timeMismatch t) := by
  unfold State.timeMismatch
  repeat' with_reducible first
    | assumption | apply State.detach_kept | apply State.put_kept

theorem opTime_kept (h : Kept s t) (f : BitVec 160) : Kept s (opTime f t) := by
  unfold opTime
  repeat' with_reducible first
    | assumption | refine State.ite_kept (fun _ => ?_) (fun _ => ?_) | apply State.joinDone_kept | apply State.modDec_kept | apply State.resyncFrom_kept | apply State.timeMismatch_kept

theorem State.setSlots_kept (h : Kept s t) (n : BitVec 48) (off : Nat) : Kept s (State.setSlots t n off) := by
  unfold State.setSlots
  repeat' with_reducible first
    | assumption | apply State.modDec_kept | apply State.slotRef_kept

theorem opSlotnum_kept (h : Kept s t) (p : Nat) (f : BitVec 160) : Kept s (opSlotnum p f t) := by
  unfold opSlotnum
  repeat' with_reducible first
    | assumption | refine State.ite_kept (fun _ => ?_) (fun _ => ?_) | apply State.joinDone_kept | apply State.modDec_kept | apply State.setSlots_kept | apply State.timeMismatch_kept

theorem opResyncAt_kept (h : Kept s t) (f : BitVec 160) : Kept s (opResyncAt f t) := by
  unfold opResyncAt
  repeat' with_reducible first
    | assumption | apply State.modDec_kept

theorem opResyncLoad_kept (h : Kept s t) (f : BitVec 160) : Kept s (opResyncLoad f t) := by
  unfold opResyncLoad
  repeat' first
    | with_reducible first | assumption | refine State.ite_kept (fun _ => ?_) (fun _ => ?_) | apply State.modDec_kept
    | (intro x; refine (show Kept s x → _ from ?_) ?_; (on_goal 1 => clear_value x; intro hx); (on_goal 2 => subst x))
    | (intro x; clear_value x)
    | lift_lets
    | intro _
    | refine Kept.snd (by with_reducible assumption) ?_
    | refine KeptO.use (by with_reducible assumption) ?_
    | refine KeptP.use (by with_reducible assumption) ?_
    | split
    | dsimp only
    | with_reducible apply Kept.mk

theorem State.deliver_kept (h : Kept s t) (m : BitVec 48) : Kept s (State.deliver t m) := by
  unfold State.deliver
  repeat' first
    | with_reducible first | assumption | refine State.ite_kept (fun _ => ?_) (fun _ => ?_) | apply State.count_kept | apply State.iff_kept | apply State.irq_kept | apply State.modDec_kept
    | intro _

theorem opMessage_kept (h : Kept s t) (p : Nat) (f : BitVec 160) : Kept s (opMessage p f t) := by
  unfold opMessage
  repeat' first
    | with_reducible first | assumption | refine State.ite_kept (fun _ => ?_) (fun _ => ?_) | apply State.deliver_kept | apply State.iff_kept | apply State.modKl_kept
    | (intro x; refine (show Kept s x → _ from ?_) ?_; (on_goal 1 => clear_value x; intro hx); (on_goal 2 => subst x))
    | (intro x; clear_value x)
    | lift_lets
    | intro _

theorem msgSet_kept (h : Kept s t) (p : Path) (v : Word) : Kept s (msgSet p v t) := by
  unfold msgSet
  repeat' with_reducible first
    | assumption | refine State.ite_kept (fun _ => ?_) (fun _ => ?_) | apply State.holdLo_kept | apply State.modDec_kept | apply State.put_kept | apply State.raise_kept | apply State.wr64_kept

theorem msgGet_kept (h : Kept s t) (p : Path) : Kept s (msgGet p t).2 := by
  unfold msgGet
  repeat' first
    | with_reducible first | assumption | apply State.modDec_kept | apply State.setLatch_kept
    | (intro x; refine (show Kept s x → _ from ?_) ?_; (on_goal 1 => clear_value x; intro hx); (on_goal 2 => subst x))
    | (intro x; clear_value x)
    | lift_lets
    | intro _
    | refine Kept.snd (by with_reducible assumption) ?_
    | refine KeptO.use (by with_reducible assumption) ?_
    | refine KeptP.use (by with_reducible assumption) ?_
    | split
    | dsimp only

theorem opDelay_kept (h : Kept s t) (p : Nat) (f : BitVec 160) (flight : BitVec 16) : Kept s (opDelay p f flight t) := by
  unfold opDelay
  repeat' first
    | with_reducible first | assumption | refine State.ite_kept (fun _ => ?_) (fun _ => ?_) | apply State.iff_kept | apply State.linkFault_kept | apply State.put_kept | apply State.setKl_kept | apply State.setPort_kept | apply State.wr_kept
    | (intro x; refine (show Kept s x → _ from ?_) ?_; (on_goal 1 => clear_value x; intro hx); (on_goal 2 => subst x))
    | (intro x; clear_value x)
    | lift_lets
    | intro _

theorem decCfgSet_kept (h : Kept s t) (p : Path) (v : Word) : Kept s (decCfgSet p v t) := by
  unfold decCfgSet
  repeat' with_reducible first
    | assumption | refine State.ite_kept (fun _ => ?_) (fun _ => ?_) | apply State.cfgErr_kept | apply State.portsRefresh_kept | apply State.wr_kept

theorem decLvSet_kept (h : Kept s t) (p : Path) (r : Nat) (v : Word) : Kept s (decLvSet p r v t) := by
  unfold decLvSet
  repeat' with_reducible first
    | assumption | refine State.ite_kept (fun _ => ?_) (fun _ => ?_) | apply State.cfgErr_kept | apply State.wr_kept

theorem State.slotStep_kept (h : Kept s t) (id off : Nat) (f : BitVec 48 → State → State)
    (k : ∀ slot u, Kept s u → Kept s (f slot u)) : Kept s (t.slotStep id off f) := by
  unfold State.slotStep
  refine State.ite_kept (fun _ => ?_) (fun _ => h)
  exact k _ _ (State.modDec_kept (State.advanceTo_kept h _) _)

theorem opReduce_kept (h : Kept s t) (slot : BitVec 48) : Kept s (opReduce slot t) := by
  unfold opReduce
  repeat' with_reducible first
    | assumption | apply State.modDec_kept

theorem State.upMessage_kept (h : Kept s t) : KeptP s t.upMessage := by
  unfold State.upMessage
  refine .ite (fun _ => .none) (fun _ => ?_)
  split
  · exact .some (State.modDec_kept h _)
  · intro v u e
    obtain ⟨p, _, e⟩ := List.exists_of_findSome?_eq_some e
    revert e
    split
    · split
      · intro e; cases e; exact State.modKl_kept h ..
      · exact nofun
    · exact nofun

theorem opUpward_kept (h : Kept s t) (slot : BitVec 48) : Kept s (opUpward slot t) := by
  unfold opUpward
  dsimp only
  refine State.ite_kept (fun _ => h) (fun _ => State.ite_kept (fun _ => State.emit_kept h _) (fun _ => State.ite_kept
    (fun _ => State.emit_kept h _) (fun _ => State.ite_kept (fun _ => ?_) (fun _ => State.ite_kept (fun _ => State.emit_kept h _)
      (fun _ => h)))))
  split
  · rename_i e
    exact State.emit_kept (State.upMessage_kept h _ _ e) _
  · exact State.emit_kept h _

theorem State.downMessage_kept (h : Kept s t) : KeptP s t.downMessage := by
  unfold State.downMessage
  refine .ite (fun _ => .none) (fun _ => .ite (fun _ => ?_) (fun _ => ?_))
  · intro v u e
    obtain ⟨⟨m, w⟩, e1, e2⟩ := Option.map_eq_some_iff.mp e
    cases e2
    exact State.deliver_kept (State.upMessage_kept h _ _ e1) ..
  · split
    · exact .some (State.modKl_kept h ..)
    · exact .none

theorem State.downLoad_kept (h : Kept s t) (seq : Nat) : Kept s (State.downLoad t seq).2 := by
  unfold State.downLoad
  repeat' first
    | with_reducible first | assumption | refine State.ite_kept (fun _ => ?_) (fun _ => ?_) | apply State.modDec_kept
    | intro _
    | refine Kept.snd (by with_reducible assumption) ?_
    | refine KeptO.use (by with_reducible assumption) ?_
    | refine KeptP.use (by with_reducible assumption) ?_
    | split

theorem State.downPort_kept (h : Kept s t) (p : Nat) (slot : BitVec 48) (gv : Word64) (loss : Bool) (load : Option (Nat × BitVec 48 × BitVec 16)) (m : Option (BitVec 48)) : Kept s (State.downPort t p slot gv loss load m) := by
  unfold State.downPort
  repeat' first
    | with_reducible first | assumption | refine State.ite_kept (fun _ => ?_) (fun _ => ?_) | apply State.emit_kept | apply State.frame_kept | apply State.setKl_kept
    | refine Kept.snd (by with_reducible assumption) ?_
    | refine KeptO.use (by with_reducible assumption) ?_
    | refine KeptP.use (by with_reducible assumption) ?_
    | split

theorem opDownward_kept (h : Kept s t) (slot : BitVec 48) : Kept s (opDownward slot t) := by
  have hd := State.downLoad_kept h (slot.toNat % 32)
  unfold opDownward
  dsimp only
  refine State.ite_kept (fun _ => h) (fun _ => State.each_kept ?_ (fun u p k => State.downPort_kept k ..))
  split
  · exact hd
  · split
    · rename_i e
      exact State.downMessage_kept hd _ _ e
    · exact hd

theorem opGlobal_kept (h : Kept s t) (slot : BitVec 48) : Kept s (opGlobal slot t) := by
  unfold opGlobal
  repeat' first
    | with_reducible first | assumption | apply State.count_kept | apply State.iff_kept | apply State.irq_kept | apply State.modDec_kept | apply State.wakeWaits_kept
    | (intro x; refine (show Kept s x → _ from ?_) ?_; (on_goal 1 => clear_value x; intro hx); (on_goal 2 => subst x))
    | (intro x; clear_value x)
    | lift_lets
    | intro _

/-! Machine/Season.lean -/

theorem State.txIdle_kept (h : Kept s t) (n : Nat) : Kept s (State.txIdle t n) := by
  unfold State.txIdle
  repeat' with_reducible first
    | assumption | refine State.ite_kept (fun _ => ?_) (fun _ => ?_) | apply State.idle_kept | apply State.txHalt_kept

theorem State.domOff_kept (h : Kept s t) (d : Nat) : Kept s (State.domOff t d) := by
  unfold State.domOff
  repeat' first
    | with_reducible first | assumption | refine State.ite_kept (fun _ => ?_) (fun _ => ?_) | apply State.detach_kept | apply State.each_kept | apply State.txIdle_kept
    | intro _

theorem State.pwrBit_kept (h : Kept s t) (p : Path) (v : Word) (d : Nat) : Kept s (State.pwrBit t p v d) := by
  unfold State.pwrBit
  repeat' first
    | with_reducible first | assumption | refine State.ite_kept (fun _ => ?_) (fun _ => ?_) | apply State.cfgErr_kept | apply State.domOff_kept | apply State.iff_kept | apply State.put_kept
    | (intro x; refine (show Kept s x → _ from ?_) ?_; (on_goal 1 => clear_value x; intro hx); (on_goal 2 => subst x))
    | (intro x; clear_value x)
    | lift_lets
    | intro _

theorem opPwrEn_kept (h : Kept s t) (p : Path) (v : Word) : Kept s (opPwrEn p v t) := by
  unfold opPwrEn
  repeat' first
    | with_reducible first | assumption | apply State.each_kept | apply State.pwrBit_kept
    | intro _

theorem State.domRegs_kept (h : Kept s t) (d : Nat) : Kept s (t.domRegs d) :=
  ⟨h.1, fun x => tableWf_filter _ _ _ (h.2 x)⟩

theorem State.bankGone_kept (h : Kept s t) (n : Nat) : Kept s (State.bankGone t n) := by
  unfold State.bankGone
  repeat' first
    | with_reducible first | assumption | apply State.bankRelease_kept | apply State.calDrop_kept | apply State.each_kept | apply State.modPe_kept | apply State.setLane_kept | apply State.setSettle_kept | apply State.setTdc_kept | apply State.tdcCancelBank_kept
    | (intro x; refine (show Kept s x → _ from ?_) ?_; (on_goal 1 => clear_value x; intro hx); (on_goal 2 => subst x))
    | (intro x; clear_value x)
    | lift_lets
    | intro _

theorem State.portGone_kept (h : Kept s t) (n : Nat) : Kept s (State.portGone t n) := by
  unfold State.portGone
  repeat' first
    | with_reducible first | assumption | apply State.calDrop_kept | apply State.rresDrop_kept | apply State.rxStop_kept | apply State.setRx_kept | apply State.setTx_kept
    | (intro x; refine (show Kept s x → _ from ?_) ?_; (on_goal 1 => clear_value x; intro hx); (on_goal 2 => subst x))
    | (intro x; clear_value x)
    | lift_lets
    | intro _
    | dsimp only
    | with_reducible apply Kept.mk

theorem State.domGone_kept (h : Kept s t) (d : Nat) : Kept s (State.domGone t d) := by
  unfold State.domGone
  repeat' first
    | with_reducible first | assumption | refine State.ite_kept (fun _ => ?_) (fun _ => ?_) | apply State.bankGone_kept | apply State.calDrop_kept | apply State.detach_kept | apply State.domRegs_kept | apply State.each_kept | apply State.hbmZero_kept | apply State.madcOff_kept | apply State.modDec_kept | apply State.portGone_kept | apply State.portsRefresh_kept | apply State.put_kept | apply State.setMadc_kept | apply State.setPort_kept | apply State.setSettle_kept | apply State.setSmu_kept
    | intro _
    | dsimp only
    | with_reducible apply Kept.mk

theorem opDomainPowered_kept (h : Kept s t) (d : Nat) : Kept s (opDomainPowered d t) := by
  unfold opDomainPowered
  repeat' with_reducible first
    | assumption | refine State.ite_kept (fun _ => ?_) (fun _ => ?_) | apply State.hbmFill_kept | apply State.portsRefresh_kept | apply State.put_kept

theorem opDomainGone_kept (h : Kept s t) (d : Nat) : Kept s (opDomainGone d t) := by
  unfold opDomainGone
  repeat' with_reducible first
    | assumption | refine State.ite_kept (fun _ => ?_) (fun _ => ?_) | apply State.domGone_kept | apply State.domRegs_kept | apply State.put_kept

theorem State.setSeason_kept (h : Kept s t) (n : Nat) : Kept s (State.setSeason t n) := by
  unfold State.setSeason
  repeat' first
    | with_reducible first | assumption | apply State.iff_kept | apply State.irq_kept | apply State.wr_kept
    | intro _

theorem State.seasonRefuse_kept (h : Kept s t) (p : Path) (bits : Nat) : Kept s (State.seasonRefuse t p bits) := by
  unfold State.seasonRefuse
  repeat' first
    | with_reducible first | assumption | apply State.cfgErr_kept | apply State.iff_kept | apply State.orr_kept
    | intro _

theorem State.mcsVerify_kept (h : Kept s t)  : Kept s (State.mcsVerify t) := by
  unfold State.mcsVerify
  repeat' first
    | with_reducible first | assumption | apply State.put_kept
    | dsimp only
    | with_reducible apply Kept.mk

theorem State.calAbandon_kept (h : Kept s t)  : Kept s (State.calAbandon t) := by
  unfold State.calAbandon
  repeat' first
    | with_reducible first | assumption | refine State.ite_kept (fun _ => ?_) (fun _ => ?_) | apply State.calDrop_kept | apply State.each_kept | apply State.iff_kept | apply State.wrf_kept
    | intro _

theorem State.changeClocks_kept (h : Kept s t) (n : Nat) : Kept s (State.changeClocks t n) := by
  unfold State.changeClocks
  repeat' first
    | with_reducible first | assumption | apply State.calAbandon_kept | apply State.each_kept | apply State.iff_kept | apply State.mcsVerify_kept | apply State.rxStop_kept | apply State.setSeason_kept | apply State.tdcCancelBank_kept | apply State.txIdle_kept
    | (intro x; refine (show Kept s x → _ from ?_) ?_; (on_goal 1 => clear_value x; intro hx); (on_goal 2 => subst x))
    | (intro x; clear_value x)
    | lift_lets
    | intro _

theorem opSummer_kept (h : Kept s t) (p : Path) : Kept s (opSummer p t) := by
  unfold opSummer
  repeat' with_reducible first
    | assumption | refine State.ite_kept (fun _ => ?_) (fun _ => ?_) | apply State.changeClocks_kept | apply State.seasonRefuse_kept

theorem opSpring_kept (h : Kept s t) (p : Path) : Kept s (opSpring p t) := by
  unfold opSpring
  repeat' with_reducible first
    | assumption | refine State.ite_kept (fun _ => ?_) (fun _ => ?_) | apply State.changeClocks_kept | apply State.seasonRefuse_kept

theorem State.txMute_kept (h : Kept s t) (n : Nat) : Kept s (State.txMute t n) := by
  unfold State.txMute
  repeat' with_reducible first
    | assumption | apply State.marksNow_kept | apply State.modTx_kept | apply State.txHalt_kept

theorem State.quench_kept (h : Kept s t)  : Kept s (State.quench t) := by
  unfold State.quench
  repeat' first
    | with_reducible first | assumption | apply State.each_kept | apply State.modSeas_kept | apply State.smuRamp_kept | apply State.txMute_kept
    | (intro x; refine (show Kept s x → _ from ?_) ?_; (on_goal 1 => clear_value x; intro hx); (on_goal 2 => subst x))
    | (intro x; clear_value x)
    | lift_lets
    | intro _

theorem opWinter_kept (h : Kept s t) (p : Path) : Kept s (opWinter p t) := by
  unfold opWinter
  repeat' first
    | with_reducible first | assumption | refine State.ite_kept (fun _ => ?_) (fun _ => ?_) | apply State.calAbandon_kept | apply State.each_kept | apply State.modSeas_kept | apply State.quench_kept | apply State.rxStop_kept | apply State.seasonRefuse_kept | apply State.setSeason_kept
    | (intro x; refine (show Kept s x → _ from ?_) ?_; (on_goal 1 => clear_value x; intro hx); (on_goal 2 => subst x))
    | (intro x; clear_value x)
    | lift_lets
    | intro _

theorem State.seasonCmd_kept (h : Kept s t) (p : Path) (v : Word) : Kept s (State.seasonCmd t p v) := by
  unfold State.seasonCmd
  repeat' with_reducible first
    | assumption | refine State.ite_kept (fun _ => ?_) (fun _ => ?_) | apply opSpring_kept | apply opSummer_kept | apply opWinter_kept | apply State.seasonRefuse_kept

theorem State.toWinter_kept (h : Kept s t) (cause fclass : Nat) (kept : BitVec 4) : Kept s (t.toWinter cause fclass kept) := by
  unfold State.toWinter
  lift_lets
  intro a b c
  have ha : Kept s a := State.iff_kept h (fun u k => State.wr64_kept k ..)
  have hb : Kept s b := State.wr_kept (State.setSeason_kept ha 0) ..
  have hc : Kept s c := State.put_kept (State.wr_kept hb ..) ..
  clear_value a b c
  have hd := State.wr_kept hc 0x2000 (c.rd 0x2000 &&& 0x3FE1)
  exact ⟨fun x => tableWf_filter _ _ _ (hc.1 x), fun x => tableWf_filter _ _ _ (hd.2 x)⟩

theorem State.smusOff_kept (h : Kept s t)  : Kept s (State.smusOff t) := by
  unfold State.smusOff
  repeat' first
    | with_reducible first | assumption | refine State.ite_kept (fun _ => ?_) (fun _ => ?_) | apply State.each_kept | apply opSmuRampDone_kept
    | intro _

theorem opSelfRefresh_kept (h : Kept s t)  : Kept s (opSelfRefresh t) := by
  unfold opSelfRefresh
  repeat' with_reducible first
    | assumption | refine State.ite_kept (fun _ => ?_) (fun _ => ?_) | apply State.cirSeason_kept | apply State.smusOff_kept | apply State.toWinter_kept

theorem State.immediateStop_kept (h : Kept s t) (cause : Nat) : Kept s (State.immediateStop t cause) := by
  unfold State.immediateStop
  repeat' with_reducible first
    | assumption | refine State.ite_kept (fun _ => ?_) (fun _ => ?_) | apply State.toWinter_kept

theorem State.autumn_kept (h : Kept s t) (cause : Nat) (fclass : Nat) : Kept s (State.autumn t cause fclass) := by
  unfold State.autumn
  repeat' first
    | with_reducible first | assumption | refine State.ite_kept (fun _ => ?_) (fun _ => ?_) | apply State.calAbandon_kept | apply State.each_kept | apply State.idle_kept | apply State.modSeas_kept | apply opAbort_kept | apply State.setSeason_kept | apply State.stopFor_kept
    | (intro x; refine (show Kept s x → _ from ?_) ?_; (on_goal 1 => clear_value x; intro hx); (on_goal 2 => subst x))
    | (intro x; clear_value x)
    | lift_lets
    | intro _

theorem opForceStop_kept (h : Kept s t)  : Kept s (opForceStop t) := by
  unfold opForceStop
  repeat' first
    | with_reducible first | assumption | refine State.ite_kept (fun _ => ?_) (fun _ => ?_) | apply State.advanceTo_kept | apply State.each_kept | apply State.engStopNow_kept | apply State.modSeas_kept | apply State.quench_kept
    | (intro x; refine (show Kept s x → _ from ?_) ?_; (on_goal 1 => clear_value x; intro hx); (on_goal 2 => subst x))
    | (intro x; clear_value x)
    | lift_lets
    | intro _
    | refine Kept.snd (by with_reducible assumption) ?_
    | refine KeptO.use (by with_reducible assumption) ?_
    | refine KeptP.use (by with_reducible assumption) ?_
    | split

theorem opPowerDown_kept (h : Kept s t)  : Kept s (opPowerDown t) := by
  unfold opPowerDown
  repeat' with_reducible first
    | assumption | refine State.ite_kept (fun _ => ?_) (fun _ => ?_) | apply State.cirSeason_kept | apply State.smusOff_kept | apply State.toWinter_kept

theorem opWinterAccess_kept (h : Kept s t) (p : Path) (a : BitVec 37) (wr : Bool) : Kept s (opWinterAccess p a wr t) := by
  unfold opWinterAccess
  repeat' first
    | with_reducible first | assumption | refine State.ite_kept (fun _ => ?_) (fun _ => ?_) | apply State.answer_kept | apply State.iff_kept | apply State.winterAnswer_kept
    | intro _

theorem opWake_kept (h : Kept s t)  : Kept s (opWake t) := by
  unfold opWake
  repeat' first
    | with_reducible first | assumption | apply State.iff_kept | apply State.modSeas_kept
    | intro _

theorem opWakeStart_kept (h : Kept s t)  : Kept s (opWakeStart t) := by
  unfold opWakeStart
  repeat' with_reducible first
    | assumption | refine State.ite_kept (fun _ => ?_) (fun _ => ?_) | apply State.count_kept | apply State.modSeas_kept | apply State.setSeason_kept

theorem opWakePowerUp_kept (h : Kept s t)  : Kept s (opWakePowerUp t) := by
  unfold opWakePowerUp
  repeat' with_reducible first
    | assumption | refine State.ite_kept (fun _ => ?_) (fun _ => ?_) | apply State.modSeas_kept | apply State.wr_kept

theorem opWakeHbm_kept (h : Kept s t)  : Kept s (opWakeHbm t) := by
  unfold opWakeHbm
  repeat' first
    | with_reducible first | assumption | refine State.ite_kept (fun _ => ?_) (fun _ => ?_) | apply State.each_kept | apply State.hbmFill_kept | apply State.modSeas_kept | apply State.put_kept
    | intro _

theorem State.msixFlush_kept (h : Kept s t)  : Kept s (State.msixFlush t) := by
  unfold State.msixFlush
  repeat' first
    | with_reducible first | assumption | refine State.ite_kept (fun _ => ?_) (fun _ => ?_) | apply State.each_kept | apply State.emit_kept | apply State.put_kept
    | intro _

theorem State.bootStart_kept (h : Kept s t)  : Kept s (State.bootStart t) := by
  unfold State.bootStart
  repeat' with_reducible first
    | assumption | refine State.ite_kept (fun _ => ?_) (fun _ => ?_) | apply State.put_kept | apply State.wrf_kept

theorem opWakeSpring_kept (h : Kept s t)  : Kept s (opWakeSpring t) := by
  unfold opWakeSpring
  repeat' with_reducible first
    | assumption | refine State.ite_kept (fun _ => ?_) (fun _ => ?_) | apply State.advanceWtc_kept | apply State.bootStart_kept | apply State.mcsVerify_kept | apply State.modSeas_kept | apply State.msixFlush_kept | apply State.setSeason_kept

theorem opAonSample_kept (h : Kept s t) (r : BitVec 16) : Kept s (opAonSample r t) := by
  unfold opAonSample
  repeat' first
    | with_reducible first | assumption | apply State.iff_kept | apply State.modSeas_kept
    | intro _

theorem State.resetAll_kept (low : Bool) : Kept s (t.resetAll low) :=
  State.put_kept ⟨fun _ => rfl, fun _ => rfl⟩ ..

theorem opSupplyLoss_kept (h : Kept s t) (v : Bool) : Kept s (opSupplyLoss v t) := by
  unfold opSupplyLoss
  dsimp only
  split
  · split
    · exact ⟨fun _ => rfl, (State.wrf_kept (State.put_kept h ..) ..).2⟩
    · exact State.put_kept h ..
  · exact State.immediateStop_kept (State.put_kept h ..) ..

/-! Machine/Faults.lean -/

theorem State.latchFault_kept (h : Kept s t) (f : FaultRec) (lvl : Nat) : Kept s (State.latchFault t f lvl) := by
  unfold State.latchFault
  repeat' with_reducible first
    | assumption | refine State.ite_kept (fun _ => ?_) (fun _ => ?_) | apply State.count_kept | apply State.put_kept | apply State.wr_kept | apply State.wr64_kept | apply State.wrf_kept

theorem State.contain_kept (h : Kept s t) (f : FaultRec) : Kept s (State.contain t f) := by
  unfold State.contain
  repeat' first
    | with_reducible first | assumption | apply State.dmaHalt_kept | apply State.engStopReq_kept | apply State.iff_kept | apply State.modEng_kept
    | intro _
    | refine Kept.snd (by with_reducible assumption) ?_
    | refine KeptO.use (by with_reducible assumption) ?_
    | refine KeptP.use (by with_reducible assumption) ?_
    | split

theorem State.react_kept (h : Kept s t) (f : FaultRec) (lvl : Nat) : Kept s (State.react t f lvl) := by
  unfold State.react
  repeat' first
    | with_reducible first | assumption | refine State.ite_kept (fun _ => ?_) (fun _ => ?_) | apply State.autumn_kept | apply State.calAbandon_kept | apply State.contain_kept | apply State.iff_kept | apply State.quench_kept | apply State.wrf_kept
    | (intro x; refine (show Kept s x → _ from ?_) ?_; (on_goal 1 => clear_value x; intro hx); (on_goal 2 => subst x))
    | (intro x; clear_value x)
    | lift_lets
    | intro _
    | dsimp only
    | with_reducible apply Kept.mk

theorem State.collect_kept (h : Kept s t) (f : FaultRec) : Kept s (State.collect t f) := by
  unfold State.collect
  repeat' first
    | with_reducible first | assumption | apply State.iff_kept | apply State.irq_kept | apply State.latchFault_kept | apply State.react_kept
    | (intro x; refine (show Kept s x → _ from ?_) ?_; (on_goal 1 => clear_value x; intro hx); (on_goal 2 => subst x))
    | (intro x; clear_value x)
    | lift_lets
    | intro _

theorem opFaultArrival_kept (h : Kept s t)  : Kept s (opFaultArrival t) := by
  unfold opFaultArrival
  repeat' first
    | with_reducible first | assumption | refine State.ite_kept (fun _ => ?_) (fun _ => ?_) | apply State.collect_kept
    | (intro x; refine (show Kept s x → _ from ?_) ?_; (on_goal 1 => clear_value x; intro hx); (on_goal 2 => subst x))
    | (intro x; clear_value x)
    | lift_lets
    | refine Kept.snd (by with_reducible assumption) ?_
    | refine KeptO.use (by with_reducible assumption) ?_
    | refine KeptP.use (by with_reducible assumption) ?_
    | split
    | dsimp only
    | with_reducible apply Kept.mk

theorem opFaultAck_kept (h : Kept s t) (classes : BitVec 16) : Kept s (opFaultAck classes t) := by
  unfold opFaultAck
  repeat' first
    | with_reducible first | assumption | refine State.ite_kept (fun _ => ?_) (fun _ => ?_) | apply State.each_kept | apply State.modEng_kept | apply State.put_kept | apply State.wr_kept | apply State.wr64_kept
    | (intro x; refine (show Kept s x → _ from ?_) ?_; (on_goal 1 => clear_value x; intro hx); (on_goal 2 => subst x))
    | (intro x; clear_value x)
    | lift_lets
    | intro _

theorem fltCfgSet_kept (h : Kept s t) (p : Path) (v : Word) : Kept s (fltCfgSet p v t) := by
  unfold fltCfgSet
  repeat' with_reducible first
    | assumption | refine State.ite_kept (fun _ => ?_) (fun _ => ?_) | apply State.cfgErr_kept | apply State.wr_kept

theorem State.txRecover_kept (h : Kept s t) (n : Nat) : Kept s (State.txRecover t n) := by
  unfold State.txRecover
  repeat' with_reducible first
    | assumption | refine State.ite_kept (fun _ => ?_) (fun _ => ?_) | apply State.idle_kept | apply State.modTx_kept | apply State.setTx_kept

theorem opFaultStateEnd_kept (h : Kept s t)  : Kept s (opFaultStateEnd t) := by
  unfold opFaultStateEnd
  repeat' first
    | with_reducible first | assumption | refine State.ite_kept (fun _ => ?_) (fun _ => ?_) | apply State.advanceTo_kept | apply State.count_kept | apply State.each_kept | apply State.iff_kept | apply State.irq_kept | apply State.modSeas_kept | apply State.txRecover_kept | apply State.wrf_kept
    | (intro x; refine (show Kept s x → _ from ?_) ?_; (on_goal 1 => clear_value x; intro hx); (on_goal 2 => subst x))
    | (intro x; clear_value x)
    | lift_lets
    | intro _

/-! Machine/Cal.lean -/

theorem State.calFault_kept (h : Kept s t) (lvl : Nat) : Kept s (State.calFault t lvl) := by
  unfold State.calFault
  repeat' with_reducible first
    | assumption | apply State.raise_kept

theorem State.calSet_kept (h : Kept s t) (i : Nat) : Kept s (State.calSet t i) := by
  unfold State.calSet
  repeat' first
    | with_reducible first | assumption | apply State.iff_kept | apply State.irq_kept | apply State.put_kept
    | intro _

theorem State.makeDue_kept (h : Kept s t) (u : Nat) (asked : Bool) : Kept s (State.makeDue t u asked) := by
  unfold State.makeDue
  repeat' with_reducible first
    | assumption | refine State.ite_kept (fun _ => ?_) (fun _ => ?_) | apply State.setUnit_kept

theorem State.calMoves_kept (h : Kept s t)  : Kept s (State.calMoves t) := by
  unfold State.calMoves
  repeat' first
    | with_reducible first | assumption | refine State.ite_kept (fun _ => ?_) (fun _ => ?_) | apply State.each_kept | apply State.makeDue_kept
    | (intro x; refine (show Kept s x → _ from ?_) ?_; (on_goal 1 => clear_value x; intro hx); (on_goal 2 => subst x))
    | (intro x; clear_value x)
    | lift_lets
    | intro _

theorem State.setSi_kept (h : Kept s t) (n : Nat) (st : Nat) (lane : Nat) : Kept s (State.setSi t n st lane) := by
  unfold State.setSi
  repeat' with_reducible first
    | assumption | apply State.wrf_kept

theorem opCalStart_kept (h : Kept s t) (u : Nat) : Kept s (opCalStart u t) := by
  unfold opCalStart
  repeat' first
    | with_reducible first | assumption | refine State.ite_kept (fun _ => ?_) (fun _ => ?_) | apply State.iff_kept | apply State.setSi_kept | apply State.setUnit_kept
    | (intro x; refine (show Kept s x → _ from ?_) ?_; (on_goal 1 => clear_value x; intro hx); (on_goal 2 => subst x))
    | (intro x; clear_value x)
    | lift_lets
    | intro _

theorem opCalComplete_kept (h : Kept s t) (u : Nat) (good : Bool) : Kept s (opCalComplete u good t) := by
  unfold opCalComplete
  repeat' first
    | with_reducible first | assumption | refine State.ite_kept (fun _ => ?_) (fun _ => ?_) | apply State.calFault_kept | apply State.calSet_kept | apply State.count_kept | apply State.iff_kept | apply State.modPe_kept | apply State.put_kept | apply State.setSi_kept | apply State.setUnit_kept | apply State.wr64_kept
    | (intro x; refine (show Kept s x → _ from ?_) ?_; (on_goal 1 => clear_value x; intro hx); (on_goal 2 => subst x))
    | (intro x; clear_value x)
    | lift_lets
    | intro _

theorem opReq_kept (h : Kept s t) (p : Path) : Kept s (opReq p t) := by
  unfold opReq
  repeat' first
    | with_reducible first | assumption | refine State.ite_kept (fun _ => ?_) (fun _ => ?_) | apply State.cfgErr_kept | apply State.each_kept | apply State.makeDue_kept
    | (intro x; refine (show Kept s x → _ from ?_) ?_; (on_goal 1 => clear_value x; intro hx); (on_goal 2 => subst x))
    | (intro x; clear_value x)
    | lift_lets
    | intro _

theorem opSave_kept (h : Kept s t) (p : Path) : Kept s (opSave p t) := by
  unfold opSave
  repeat' with_reducible first
    | assumption | refine State.ite_kept (fun _ => ?_) (fun _ => ?_) | apply State.cfgErr_kept | apply State.put_kept

theorem State.saveUnit_kept (h : Kept s t) (u : Nat) (failed : Bool) : Kept s (State.saveUnit t u failed) := by
  unfold State.saveUnit
  repeat' first
    | with_reducible first | assumption | refine State.ite_kept (fun _ => ?_) (fun _ => ?_) | apply State.calFault_kept | apply State.calSet_kept | apply State.setUnit_kept
    | (intro x; refine (show Kept s x → _ from ?_) ?_; (on_goal 1 => clear_value x; intro hx); (on_goal 2 => subst x))
    | (intro x; clear_value x)
    | lift_lets
    | intro _
    | dsimp only
    | with_reducible apply Kept.mk

theorem opSaveDone_kept (h : Kept s t) (failed : List (Fin 1344)) : Kept s (opSaveDone failed t) := by
  unfold opSaveDone
  repeat' first
    | with_reducible first | assumption | refine State.ite_kept (fun _ => ?_) (fun _ => ?_) | apply State.each_kept | apply State.put_kept | apply State.saveUnit_kept
    | intro _

theorem State.loadUnit_kept (h : Kept s t) (u : Nat) (bw : Bool) (bf : Bool) : Kept s (State.loadUnit t u bw bf) := by
  unfold State.loadUnit
  repeat' first
    | with_reducible first | assumption | refine State.ite_kept (fun _ => ?_) (fun _ => ?_) | apply State.calFault_kept | apply State.calSet_kept | apply State.count_kept | apply State.iff_kept | apply State.put_kept | apply State.setUnit_kept
    | intro _

theorem opCalLoadDone_kept (h : Kept s t) (bw : List (Fin 1344)) (bf : List (Fin 1344)) : Kept s (opCalLoadDone bw bf t) := by
  unfold opCalLoadDone
  repeat' first
    | with_reducible first | assumption | refine State.ite_kept (fun _ => ?_) (fun _ => ?_) | apply State.calSet_kept | apply State.each_kept | apply State.loadUnit_kept
    | (intro x; refine (show Kept s x → _ from ?_) ?_; (on_goal 1 => clear_value x; intro hx); (on_goal 2 => subst x))
    | (intro x; clear_value x)
    | lift_lets
    | intro _

theorem calCfgSet_kept (h : Kept s t) (p : Path) (v : Word) : Kept s (calCfgSet p v t) := by
  unfold calCfgSet
  repeat' with_reducible first
    | assumption | refine State.ite_kept (fun _ => ?_) (fun _ => ?_) | apply State.cfgErr_kept | apply State.wr_kept

theorem State.calCtrl_kept (h : Kept s t) (p : Path) (v : Word) : Kept s (State.calCtrl t p v) := by
  unfold State.calCtrl
  repeat' first
    | with_reducible first | assumption | apply State.iff_kept | apply opReq_kept | apply opSave_kept
    | intro _

theorem opHandover_kept (h : Kept s t) (n : Nat) (l : Nat) : Kept s (opHandover n l t) := by
  unfold opHandover
  repeat' with_reducible first
    | assumption | refine State.ite_kept (fun _ => ?_) (fun _ => ?_) | apply State.modPe_kept | apply State.modUnit_kept | apply State.setSi_kept

theorem opPrepareDone_kept (h : Kept s t) (n : Nat) : Kept s (opPrepareDone n t) := by
  unfold opPrepareDone
  repeat' with_reducible first
    | assumption | refine State.ite_kept (fun _ => ?_) (fun _ => ?_) | apply State.advanceTo_kept | apply State.setSi_kept

theorem State.siSwitch_kept (h : Kept s t) (n : Nat) (st : Nat) (timed : Bool) : Kept s (State.siSwitch t n st timed) := by
  unfold State.siSwitch
  repeat' first
    | with_reducible first | assumption | apply State.advanceTo_kept | apply State.count_kept | apply State.setSi_kept | apply State.settleStarve_kept | apply State.vecTo_kept
    | (intro x; refine (show Kept s x → _ from ?_) ?_; (on_goal 1 => clear_value x; intro hx); (on_goal 2 => subst x))
    | (intro x; clear_value x)
    | lift_lets
    | intro _
    | refine Kept.snd (by with_reducible assumption) ?_
    | refine KeptO.use (by with_reducible assumption) ?_
    | refine KeptP.use (by with_reducible assumption) ?_
    | split

theorem opTakeover_kept (h : Kept s t) (n : Nat) : Kept s (opTakeover n t) := by
  unfold opTakeover
  repeat' with_reducible first
    | assumption | refine State.ite_kept (fun _ => ?_) (fun _ => ?_) | apply State.siSwitch_kept

theorem opReturn_kept (h : Kept s t) (n : Nat) : Kept s (opReturn n t) := by
  unfold opReturn
  repeat' with_reducible first
    | assumption | refine State.ite_kept (fun _ => ?_) (fun _ => ?_) | apply State.siSwitch_kept

theorem opDefer_kept (h : Kept s t) (n : Nat) : Kept s (opDefer n t) := by
  unfold opDefer
  repeat' with_reducible first
    | assumption | refine State.ite_kept (fun _ => ?_) (fun _ => ?_) | apply State.advanceTo_kept | apply State.count_kept | apply State.modUnit_kept | apply State.setSi_kept

/-! Machine/Thermal.lean -/

theorem State.thmSet_kept (h : Kept s t) (i : Nat) (en : Nat) : Kept s (State.thmSet t i en) := by
  unfold State.thmSet
  repeat' first
    | with_reducible first | assumption | apply State.iff_kept | apply State.irq_kept | apply State.put_kept
    | intro _

theorem State.thermFault_kept (h : Kept s t) (lvl : Nat) : Kept s (State.thermFault t lvl) := by
  unfold State.thermFault
  repeat' with_reducible first
    | assumption | apply State.raise_kept

theorem State.checkSensor_kept (h : Kept s t) (s0 : State) (rs : List (BitVec 16)) (i : Nat) :
    Kept s (State.checkSensor s0 t rs i) := by
  unfold State.checkSensor
  refine State.ite_kept (fun _ => State.wr_kept h ..) (fun _ => State.ite_kept (fun _ => State.wr_kept h ..) (fun _ => ?_))
  exact State.iff_kept (State.iff_kept (State.wrf_kept (State.wr_kept h ..) ..) fun u k => State.put_kept k ..) fun u k =>
    State.thermFault_kept (State.thmSet_kept (State.put_kept k ..) ..) _

theorem State.substitute_kept (h : Kept s t) (rs : List (BitVec 16)) (i : Nat) : Kept s (State.substitute t rs i) := by
  unfold State.substitute
  repeat' first
    | with_reducible first | assumption | refine State.ite_kept (fun _ => ?_) (fun _ => ?_) | apply State.free_kept | apply State.wrf_kept | apply KeptO.getD | refine foldl_kept ?_ ?_
    | (intro x; refine (show Kept s x → _ from ?_) ?_; (on_goal 1 => clear_value x; intro hx); (on_goal 2 => subst x))
    | (intro x; clear_value x)
    | lift_lets
    | intro _
    | refine Kept.snd (by with_reducible assumption) ?_
    | refine KeptO.use (by with_reducible assumption) ?_
    | refine KeptP.use (by with_reducible assumption) ?_
    | split

theorem State.thermalShutdown_kept (h : Kept s t) (t_ : Int) : Kept s (State.thermalShutdown t t_) := by
  unfold State.thermalShutdown
  repeat' with_reducible first
    | assumption | refine State.ite_kept (fun _ => ?_) (fun _ => ?_) | apply State.autumn_kept | apply State.immediateStop_kept | apply State.modSeas_kept | apply State.thermFault_kept

theorem State.thresholds_kept (h : Kept s t) (t_ : Int) : Kept s (State.thresholds t t_) := by
  unfold State.thresholds
  repeat' first
    | with_reducible first | assumption | refine State.ite_kept (fun _ => ?_) (fun _ => ?_) | apply State.iff_kept | apply State.put_kept | apply State.thermFault_kept | apply State.thmSet_kept | apply State.wr_kept
    | (intro x; refine (show Kept s x → _ from ?_) ?_; (on_goal 1 => clear_value x; intro hx); (on_goal 2 => subst x))
    | (intro x; clear_value x)
    | lift_lets
    | intro _

theorem State.thist_kept (h : Kept s t) (l : List (Nat × Int)) : Kept s { t with thist := l } := ⟨h.1, h.2⟩

theorem opThermalSample_kept (h : Kept s t) (rs : List (BitVec 16)) : Kept s (opThermalSample rs t) := by
  unfold opThermalSample
  refine State.ite_kept (fun _ => h) (fun _ => ?_)
  apply State.thermalShutdown_kept
  apply State.calMoves_kept
  apply State.thist_kept
  apply State.thresholds_kept
  apply State.wr_kept
  refine State.each_kept (State.each_kept ?_ fun u i k => ?_) fun u i k => ?_
  · split
    · exact h
    · exact State.advanceTo_kept h _
  · exact State.checkSensor_kept k ..
  · exact State.substitute_kept k ..

theorem opSuspectClear_kept (h : Kept s t) (i : Nat) : Kept s (opSuspectClear i t) := by
  unfold opSuspectClear
  repeat' with_reducible first
    | assumption | apply State.put_kept | apply State.wrf_kept

theorem thmCfgSet_kept (h : Kept s t) (p : Path) (v : Word) : Kept s (thmCfgSet p v t) := by
  unfold thmCfgSet
  repeat' with_reducible first
    | assumption | refine State.ite_kept (fun _ => ?_) (fun _ => ?_) | apply State.cfgErr_kept | apply State.wr_kept

/-! Machine/Mcs.lean -/

theorem opMcsLoad_kept (h : Kept s t) (p : Path) : Kept s (opMcsLoad p t) := by
  unfold opMcsLoad
  repeat' first
    | with_reducible first | assumption | refine State.ite_kept (fun _ => ?_) (fun _ => ?_) | apply State.cfgErr_kept | apply State.put_kept
    | dsimp only
    | with_reducible apply Kept.mk

theorem opReload_kept (h : Kept s t) (p : Path) : Kept s (opReload p t) := by
  unfold opReload
  repeat' with_reducible first
    | assumption | refine State.ite_kept (fun _ => ?_) (fun _ => ?_) | apply State.cfgErr_kept | apply State.mcsVerify_kept

theorem State.mcsCtrl_kept (h : Kept s t) (p : Path) (v : Word) : Kept s (State.mcsCtrl t p v) := by
  unfold State.mcsCtrl
  repeat' with_reducible first
    | assumption | refine State.ite_kept (fun _ => ?_) (fun _ => ?_) | apply opMcsLoad_kept | apply opReload_kept

theorem State.mcsRefuse_kept (h : Kept s t) (cause : Nat) : Kept s (State.mcsRefuse t cause) := by
  unfold State.mcsRefuse
  repeat' with_reducible first
    | assumption | apply State.put_kept | apply State.raise_kept | apply State.wrf_kept

theorem State.mcsRom_kept (h : Kept s t)  : Kept s (State.mcsRom t) := by
  unfold State.mcsRom
  repeat' first
    | with_reducible first | assumption | apply State.put_kept | apply State.wr_kept | apply State.wrf_kept
    | dsimp only
    | with_reducible apply Kept.mk

theorem State.mcsLoaded_kept (h : Kept s t) (ue : Bool) (readBackOk : Bool) : Kept s (State.mcsLoaded t ue readBackOk) := by
  unfold State.mcsLoaded
  repeat' first
    | with_reducible first | assumption | refine State.ite_kept (fun _ => ?_) (fun _ => ?_) | apply State.mcsRefuse_kept | apply State.mcsRom_kept | apply State.put_kept | apply State.wr_kept | apply State.wrf_kept | apply KeptO.getD
    | (intro x; refine (show Kept s x → _ from ?_) ?_; (on_goal 1 => clear_value x; intro hx); (on_goal 2 => subst x))
    | (intro x; clear_value x)
    | lift_lets
    | refine Kept.snd (by with_reducible assumption) ?_
    | refine KeptO.use (by with_reducible assumption) ?_
    | refine KeptP.use (by with_reducible assumption) ?_
    | split
    | dsimp only
    | with_reducible apply Kept.mk

theorem State.copyRead_kept (h : Kept s t) (a : Nat) (b : List Byte) (e : HbmEcc) : Kept s (State.copyRead t a b e).2 := by
  unfold State.copyRead
  repeat' first
    | with_reducible first | assumption | refine State.ite_kept (fun _ => ?_) (fun _ => ?_) | apply State.free_kept | apply State.hbmRead_kept
    | (intro x; refine (show Kept s x → _ from ?_) ?_; (on_goal 1 => clear_value x; intro hx); (on_goal 2 => subst x))
    | (intro x; clear_value x)
    | lift_lets
    | refine Kept.snd (by with_reducible assumption) ?_
    | refine KeptO.use (by with_reducible assumption) ?_
    | refine KeptP.use (by with_reducible assumption) ?_
    | split

theorem State.mcsSeen_kept (h : Kept s t) (e : HbmEcc) : Kept s (State.mcsSeen t e) := by
  unfold State.mcsSeen
  repeat' first
    | with_reducible first | assumption | apply State.copyRead_kept
    | (intro x; refine (show Kept s x → _ from ?_) ?_; (on_goal 1 => clear_value x; intro hx); (on_goal 2 => subst x))
    | (intro x; clear_value x)
    | lift_lets
    | refine Kept.snd (by with_reducible assumption) ?_
    | refine KeptO.use (by with_reducible assumption) ?_
    | refine KeptP.use (by with_reducible assumption) ?_
    | split
    | dsimp only
    | with_reducible apply Kept.mk

theorem opMcsDone_kept (h : Kept s t) (ecc : HbmEcc) (readBackOk : Bool) : Kept s (opMcsDone ecc readBackOk t) := by
  unfold opMcsDone
  repeat' first
    | with_reducible first | assumption | refine State.ite_kept (fun _ => ?_) (fun _ => ?_) | apply State.mcsLoaded_kept | apply State.mcsRefuse_kept | apply State.mcsRom_kept | apply State.mcsSeen_kept | apply State.put_kept
    | (intro x; refine (show Kept s x → _ from ?_) ?_; (on_goal 1 => clear_value x; intro hx); (on_goal 2 => subst x))
    | (intro x; clear_value x)
    | lift_lets
    | dsimp only
    | with_reducible apply Kept.mk

theorem opHostGo_kept (h : Kept s t) (p : Path) : Kept s (opHostGo p t) := by
  unfold opHostGo
  repeat' with_reducible first
    | assumption | refine State.ite_kept (fun _ => ?_) (fun _ => ?_) | apply State.cfgErr_kept | apply State.put_kept | apply State.wrf_kept

/-! Machine/Bus.lean -/

theorem State.plainRead_kept (h : Kept s t) (p : Path) (a : Nat) (r : Row) : Kept s (State.plainRead t p a r).2 := by
  unfold State.plainRead
  repeat' first
    | with_reducible first | assumption | refine State.ite_kept (fun _ => ?_) (fun _ => ?_) | apply State.setLatch_kept
    | split

theorem State.countClear_kept (h : Kept s t) (base : Nat) (a : Nat) (k : Nat) (c : Sat) (v : Word) : Kept s (State.countClear t base a k c v) := by
  unfold State.countClear
  repeat' with_reducible first
    | assumption | refine State.ite_kept (fun _ => ?_) (fun _ => ?_) | apply State.put_kept | apply State.wr_kept

theorem State.plainWrite_kept (h : Kept s t) (p : Path) (a : Nat) (r : Row) (k : Nat) (v : Word) : Kept s (State.plainWrite t p a r k v) := by
  unfold State.plainWrite
  repeat' first
    | with_reducible first | assumption | refine State.ite_kept (fun _ => ?_) (fun _ => ?_) | apply State.countClear_kept | apply State.holdLo_kept | apply State.wr_kept
    | (intro x; refine (show Kept s x → _ from ?_) ?_; (on_goal 1 => clear_value x; intro hx); (on_goal 2 => subst x))
    | (intro x; clear_value x)
    | lift_lets
    | refine Kept.snd (by with_reducible assumption) ?_
    | refine KeptO.use (by with_reducible assumption) ?_
    | refine KeptP.use (by with_reducible assumption) ?_
    | split

theorem State.allow_kept (h : Kept s t) (p : Path) (ok : Bool) : KeptO s (State.allow t p ok) := by
  unfold State.allow
  repeat' with_reducible first
    | assumption | refine State.ite_kept (fun _ => ?_) (fun _ => ?_) | apply State.cfgErr_kept | exact KeptO.none | apply KeptO.some | apply KeptO.map | refine KeptO.ite (fun _ => ?_) (fun _ => ?_)

theorem State.glbSet_kept (h : Kept s t) (p : Path) (o : Nat) (v : Word) : KeptO s (State.glbSet t p o v) := by
  unfold State.glbSet
  repeat' first
    | with_reducible first | assumption | refine State.ite_kept (fun _ => ?_) (fun _ => ?_) | apply State.iff_kept | apply State.msixFlush_kept | apply opHostGo_kept | apply opInit_kept | apply opPwrEn_kept | apply opWake_kept | apply State.put_kept | apply State.seasonCmd_kept | apply State.wr_kept | exact KeptO.none | apply KeptO.some | apply KeptO.map | refine KeptO.ite (fun _ => ?_) (fun _ => ?_)
    | intro _
    | split
    | dsimp only
    | with_reducible apply Kept.mk

theorem State.timeSet_kept (h : Kept s t) (p : Path) (o : Nat) (v : Word) : KeptO s (State.timeSet t p o v) := by
  unfold State.timeSet
  repeat' first
    | with_reducible first | assumption | refine State.ite_kept (fun _ => ?_) (fun _ => ?_) | apply State.allow_kept | apply State.iff_kept | apply opCancel_kept | apply opResync_kept | exact KeptO.none | apply KeptO.some | apply KeptO.map | refine KeptO.ite (fun _ => ?_) (fun _ => ?_)
    | intro _

theorem State.decGet_kept (h : Kept s t) (p : Path) (o : Nat) : KeptP s (State.decGet t p o) := by
  unfold State.decGet
  repeat' with_reducible first
    | assumption | refine State.ite_kept (fun _ => ?_) (fun _ => ?_) | apply msgGet_kept | exact KeptP.none | apply KeptP.some | apply KeptP.map | refine KeptP.ite (fun _ => ?_) (fun _ => ?_)

theorem State.decSet_kept (h : Kept s t) (p : Path) (o : Nat) (v : Word) : KeptO s (State.decSet t p o v) := by
  unfold State.decSet
  repeat' with_reducible first
    | assumption | refine State.ite_kept (fun _ => ?_) (fun _ => ?_) | apply State.allow_kept | apply decCfgSet_kept | apply State.decCtrl_kept | apply decLvSet_kept | apply msgSet_kept | exact KeptO.none | apply KeptO.some | apply KeptO.map | refine KeptO.ite (fun _ => ?_) (fun _ => ?_)

theorem State.dmaSet_kept (h : Kept s t) (p : Path) (d : Nat) (o : Nat) (v : Word) : KeptO s (State.dmaSet t p d o v) := by
  unfold State.dmaSet
  repeat' first
    | with_reducible first | assumption | refine State.ite_kept (fun _ => ?_) (fun _ => ?_) | apply State.chCtrl_kept | apply State.iff_kept | apply opDmaReset_kept | exact KeptO.none | apply KeptO.some | apply KeptO.map | refine KeptO.ite (fun _ => ?_) (fun _ => ?_)
    | intro _

theorem State.xipWord_kept (h : Kept s t) (w : Nat) : Kept s (State.xipWord t w).2 := by
  unfold State.xipWord
  repeat' with_reducible first
    | assumption | apply State.emit_kept | apply State.free_kept

theorem State.serGet_kept (h : Kept s t) (o : Nat) : KeptP s (State.serGet t o) := by
  unfold State.serGet
  repeat' with_reducible first
    | assumption | refine State.ite_kept (fun _ => ?_) (fun _ => ?_) | apply State.xipWord_kept | exact KeptP.none | apply KeptP.some | apply KeptP.map | refine KeptP.ite (fun _ => ?_) (fun _ => ?_)

theorem State.serSet_kept (h : Kept s t) (p : Path) (o : Nat) (v : Word) : KeptO s (State.serSet t p o v) := by
  unfold State.serSet
  repeat' with_reducible first
    | assumption | refine State.ite_kept (fun _ => ?_) (fun _ => ?_) | apply State.allow_kept | apply State.cardCtrl_kept | apply State.xipErase_kept | apply State.xipWrite_kept | exact KeptO.none | apply KeptO.some | apply KeptO.map | refine KeptO.ite (fun _ => ?_) (fun _ => ?_)

theorem State.engGet_kept (h : Kept s t) (p : Path) (e : Nat) (o : Nat) : KeptP s (State.engGet t p e o) := by
  unfold State.engGet
  repeat' with_reducible first
    | assumption | refine State.ite_kept (fun _ => ?_) (fun _ => ?_) | apply State.imageRead_kept | apply State.sigRead_kept | exact KeptP.none | apply KeptP.some | apply KeptP.map | refine KeptP.ite (fun _ => ?_) (fun _ => ?_)

theorem State.engSet_kept (h : Kept s t) (p : Path) (e : Nat) (o : Nat) (v : Word) : KeptO s (State.engSet t p e o v) := by
  unfold State.engSet
  repeat' with_reducible first
    | assumption | refine State.ite_kept (fun _ => ?_) (fun _ => ?_) | apply State.engCtrl_kept | apply State.engStatSet_kept | apply State.imageWrite_kept | exact KeptO.none | apply KeptO.some | apply KeptO.map | refine KeptO.ite (fun _ => ?_) (fun _ => ?_)

theorem State.peGet_kept (h : Kept s t) (p : Path) (n : Nat) (o : Nat) : KeptP s (State.peGet t p n o) := by
  unfold State.peGet
  repeat' with_reducible first
    | assumption | refine State.ite_kept (fun _ => ?_) (fun _ => ?_) | apply State.engGet_kept | apply State.sitesGet_kept | exact KeptP.none | apply KeptP.some | apply KeptP.map | refine KeptP.ite (fun _ => ?_) (fun _ => ?_)

theorem State.rauRegSet_kept (h : Kept s t) (p : Path) (k : Nat) (r : Nat) (v : Word) : KeptO s (State.rauRegSet t p k r v) := by
  unfold State.rauRegSet
  repeat' with_reducible first
    | assumption | refine State.ite_kept (fun _ => ?_) (fun _ => ?_) | apply State.allow_kept | apply State.rauCmd_kept | apply State.rauErr_kept | exact KeptO.none | apply KeptO.some | apply KeptO.map | refine KeptO.ite (fun _ => ?_) (fun _ => ?_)

theorem State.vecRegSet_kept (h : Kept s t) (p : Path) (n : Nat) (o : Nat) (v : Word) : KeptO s (State.vecRegSet t p n o v) := by
  unfold State.vecRegSet
  repeat' with_reducible first
    | assumption | refine State.ite_kept (fun _ => ?_) (fun _ => ?_) | apply State.allow_kept | apply State.holdLo_kept | apply State.lmapSet_kept | apply State.scrSet_kept | apply State.sitesSet_kept | apply State.starveSet_kept | exact KeptO.none | apply KeptO.some | apply KeptO.map | refine KeptO.ite (fun _ => ?_) (fun _ => ?_)

theorem State.capRegSet_kept (h : Kept s t) (p : Path) (n : Nat) (o : Nat) (v : Word) : KeptO s (State.capRegSet t p n o v) := by
  unfold State.capRegSet
  repeat' first
    | with_reducible first | assumption | refine State.ite_kept (fun _ => ?_) (fun _ => ?_) | apply State.allow_kept | apply State.each_kept | apply State.fringRdSet_kept | apply State.fringSizeSet_kept | apply State.iff_kept | apply opBmpClear_kept | apply State.ringReset_kept | exact KeptO.none | apply KeptO.some | apply KeptO.map | refine KeptO.ite (fun _ => ?_) (fun _ => ?_)
    | intro _

theorem State.peSet_kept (h : Kept s t) (p : Path) (n : Nat) (o : Nat) (v : Word) : KeptO s (State.peSet t p n o v) := by
  unfold State.peSet
  repeat' with_reducible first
    | assumption | refine State.ite_kept (fun _ => ?_) (fun _ => ?_) | apply State.allow_kept | apply State.capRegSet_kept | apply State.engSet_kept | apply State.fmtCmd_kept | apply State.rauRegSet_kept | apply State.vecRegSet_kept | exact KeptO.none | apply KeptO.some | apply KeptO.map | refine KeptO.ite (fun _ => ?_) (fun _ => ?_)

theorem State.pbGet_kept (h : Kept s t) (p : Path) (n : Nat) (o : Nat) : KeptP s (State.pbGet t p n o) := by
  unfold State.pbGet
  repeat' with_reducible first
    | assumption | refine State.ite_kept (fun _ => ?_) (fun _ => ?_) | apply State.count_kept | apply madcDataVal_kept | apply madcResVal_kept | apply tdcResVal_kept | exact KeptP.none | apply KeptP.some | apply KeptP.map | refine KeptP.ite (fun _ => ?_) (fun _ => ?_)

theorem State.madcCtrl_kept (h : Kept s t) (n : Nat) (v : Word) : Kept s (State.madcCtrl t n v) := by
  unfold State.madcCtrl
  repeat' first
    | with_reducible first | assumption | apply State.iff_kept | apply opKick_kept | apply opRun_kept | apply State.put_kept | apply State.wrf_kept
    | intro _

theorem State.tdcRegSet_kept (h : Kept s t) (p : Path) (n : Nat) (t_ : Nat) (r : Nat) (v : Word) : KeptO s (State.tdcRegSet t p n t_ r v) := by
  unfold State.tdcRegSet
  repeat' first
    | with_reducible first | assumption | refine State.ite_kept (fun _ => ?_) (fun _ => ?_) | apply State.allow_kept | apply State.cfgErr_kept | apply State.idle_kept | apply State.iff_kept | apply State.tdcArmOr_kept | apply State.tdcCancel_kept | exact KeptO.none | apply KeptO.some | apply KeptO.map | refine KeptO.ite (fun _ => ?_) (fun _ => ?_)
    | intro _

theorem State.pbSet_kept (h : Kept s t) (p : Path) (n : Nat) (o : Nat) (v : Word) : KeptO s (State.pbSet t p n o v) := by
  unfold State.pbSet
  repeat' with_reducible first
    | assumption | refine State.ite_kept (fun _ => ?_) (fun _ => ?_) | apply State.allow_kept | apply State.laneCfgSet_kept | apply State.laneWrite_kept | apply State.lvlWrite_kept | apply State.madcCtrl_kept | apply opMseqCommit_kept | apply opPpmuWrite_kept | apply opSmuCfgWrite_kept | apply opSmuClampWrite_kept | apply State.tdcRegSet_kept | exact KeptO.none | apply KeptO.some | apply KeptO.map | refine KeptO.ite (fun _ => ?_) (fun _ => ?_)

theorem State.rfGet_kept (h : Kept s t) (p : Path) (n : Nat) (o : Nat) : KeptP s (State.rfGet t p n o) := by
  unfold State.rfGet
  repeat' first
    | with_reducible first | assumption | refine State.ite_kept (fun _ => ?_) (fun _ => ?_) | apply State.aqSettle_kept | apply State.iff_kept | apply State.resData_kept | apply State.setLatch_kept | apply State.tabAccess_kept | apply State.tabLo_kept | exact KeptP.none | apply KeptP.some | apply KeptP.map | refine KeptP.ite (fun _ => ?_) (fun _ => ?_)
    | intro _

theorem State.txCtrl_kept (h : Kept s t) (p : Path) (n : Nat) (v : Word) : Kept s (State.txCtrl t p n v) := by
  unfold State.txCtrl
  repeat' with_reducible first
    | assumption | refine State.ite_kept (fun _ => ?_) (fun _ => ?_) | apply State.txSend_kept

theorem State.rxCtrl_kept (h : Kept s t) (p : Path) (n : Nat) (v : Word) : Kept s (State.rxCtrl t p n v) := by
  unfold State.rxCtrl
  repeat' first
    | with_reducible first | assumption | apply State.aqRingReset_kept | apply State.aqStopAt_kept | apply State.armHost_kept | apply State.iff_kept | apply State.resFlush_kept
    | (intro x; refine (show Kept s x → _ from ?_) ?_; (on_goal 1 => clear_value x; intro hx); (on_goal 2 => subst x))
    | (intro x; clear_value x)
    | lift_lets
    | intro _

theorem State.txSet_kept (h : Kept s t) (p : Path) (n : Nat) (o : Nat) (v : Word) : KeptO s (State.txSet t p n o v) := by
  unfold State.txSet
  repeat' with_reducible first
    | assumption | refine State.ite_kept (fun _ => ?_) (fun _ => ?_) | apply State.mkrouteSet_kept | apply State.tabAccess_kept | apply State.tabSel_kept | apply State.toneSet_kept | apply State.txCfgSet_kept | apply State.txCtrl_kept | exact KeptO.none | apply KeptO.some | apply KeptO.map | refine KeptO.ite (fun _ => ?_) (fun _ => ?_)

theorem State.rxSet_kept (h : Kept s t) (p : Path) (n : Nat) (o : Nat) (v : Word) : KeptO s (State.rxSet t p n o v) := by
  unfold State.rxSet
  repeat' with_reducible first
    | assumption | refine State.ite_kept (fun _ => ?_) (fun _ => ?_) | apply State.allow_kept | apply State.aqSettle_kept | apply State.aqSizeSet_kept | apply State.demodSet_kept | apply State.demodWinSet_kept | apply State.discSet_kept | apply State.run_kept | apply State.rxCfgSet_kept | apply State.rxCtrl_kept | apply State.tabAccess_kept | apply State.tabSel_kept | apply State.trigSet_kept | exact KeptO.none | apply KeptO.some | apply KeptO.map | refine KeptO.ite (fun _ => ?_) (fun _ => ?_)

theorem State.specialRead_kept (h : Kept s t) (p : Path) (a : Nat) : KeptP s (t.specialRead p a) := by
  have pure (r : Option Word) : KeptP s (r.map (fun v => (v, t))) := .map (fun _ => h)
  unfold State.specialRead
  dsimp only
  split
  · exact pure _
  · exact pure _
  · apply State.decGet_kept h
  · exact pure _
  · exact pure _
  · exact pure _
  · apply State.serGet_kept h
  · apply State.peGet_kept h
  · apply State.engGet_kept h
  · apply State.pbGet_kept h
  · apply State.rfGet_kept h
  · exact .some (State.fsRead_kept h ..)
  · exact .none

theorem State.specialWrite_kept (h : Kept s t) (p : Path) (a : Nat) (v : Word) : KeptO s (t.specialWrite p a v) := by
  unfold State.specialWrite
  split
  · apply State.glbSet_kept h
  · apply State.timeSet_kept h
  · apply State.decSet_kept h
  · exact .ite (fun _ => .some (opFaultAck_kept h _)) (fun _ => .ite (fun _ => .some (fltCfgSet_kept h ..)) (fun _ => .none))
  · exact .ite (fun _ => .some (thmCfgSet_kept h ..)) (fun _ => .ite
      (fun _ => .some (State.iff_kept h fun u k => opSuspectClear_kept k _)) (fun _ => .none))
  · exact .ite (fun _ => .some (State.calCtrl_kept h ..)) (fun _ => .ite (fun _ => .some (calCfgSet_kept h ..)) (fun _ => .none))
  · apply State.dmaSet_kept h
  · apply State.serSet_kept h
  · exact .ite (fun _ => .some (State.mcsCtrl_kept h ..)) (fun _ => .ite (fun _ => by apply State.allow_kept h) (fun _ => .none))
  · apply State.peSet_kept h
  · apply State.engSet_kept h
  · apply State.pbSet_kept h
  · exact .ite (fun _ => by apply State.txSet_kept h) (fun _ => by apply State.rxSet_kept h)
  · exact .some (State.memSet_kept h ..)
  · exact .some (State.cfgErr_kept h p)
  · exact .none

theorem State.regRead_kept (h : Kept s t) (p : Path) (a : Nat) : Kept s (State.regRead t p a).2 := by
  unfold State.regRead
  repeat' first
    | with_reducible first | assumption | apply State.plainRead_kept | apply State.specialRead_kept
    | refine Kept.snd (by with_reducible assumption) ?_
    | refine KeptO.use (by with_reducible assumption) ?_
    | refine KeptP.use (by with_reducible assumption) ?_
    | split

theorem State.regWrite_kept (h : Kept s t) (p : Path) (a : Nat) (v : Word) : Kept s (State.regWrite t p a v) := by
  unfold State.regWrite
  repeat' first
    | with_reducible first | assumption | refine State.ite_kept (fun _ => ?_) (fun _ => ?_) | apply State.plainWrite_kept | apply State.specialWrite_kept
    | refine Kept.snd (by with_reducible assumption) ?_
    | refine KeptO.use (by with_reducible assumption) ?_
    | refine KeptP.use (by with_reducible assumption) ?_
    | split

theorem State.busRead_kept (h : Kept s t) (p : Path) (a : Nat) : Kept s (State.busRead t p a).2 := by
  unfold State.busRead
  repeat' first
    | with_reducible first | assumption | apply State.reach_kept | apply State.regRead_kept
    | refine Kept.snd (by with_reducible assumption) ?_
    | refine KeptO.use (by with_reducible assumption) ?_
    | refine KeptP.use (by with_reducible assumption) ?_
    | split

theorem State.busWrite_kept (h : Kept s t) (p : Path) (a : Nat) (v : Word) : Kept s (State.busWrite t p a v) := by
  unfold State.busWrite
  repeat' first
    | with_reducible first | assumption | apply State.host_kept | apply State.regWrite_kept
    | intro _

/-! Machine/RegAccess.lean -/

theorem State.sizeErr_kept (h : Kept s t) (p : Path) (a : Nat) : Kept s (State.sizeErr t p a) := by
  unfold State.sizeErr
  repeat' first
    | with_reducible first | assumption | apply State.gate_kept | apply State.hostStat_kept | apply State.raise_kept
    | refine Kept.snd (by with_reducible assumption) ?_
    | refine KeptO.use (by with_reducible assumption) ?_
    | refine KeptP.use (by with_reducible assumption) ?_
    | split

theorem opRegisterWrite_kept (h : Kept s t) (p : Path) (a : Nat) (q : Req) (v : Word) : Kept s (opRegisterWrite p a q v t) := by
  unfold opRegisterWrite
  repeat' first
    | with_reducible first | assumption | refine State.ite_kept (fun _ => ?_) (fun _ => ?_) | apply State.busWrite_kept | apply State.sizeErr_kept
    | refine Kept.snd (by with_reducible assumption) ?_
    | refine KeptO.use (by with_reducible assumption) ?_
    | refine KeptP.use (by with_reducible assumption) ?_
    | split

theorem opCsr_kept (h : Kept s t) (x : Iss) (rd : Gr) (ra : Gr) (wr : Bool) (a : Nat) : Kept s (opCsr x rd ra wr a t) := by
  unfold opCsr
  repeat' with_reducible first
    | assumption | refine State.ite_kept (fun _ => ?_) (fun _ => ?_) | apply State.busRead_kept | apply State.busWrite_kept | apply State.illegal_kept | apply State.takeTag_kept

/-! Machine/Move.lean -/

theorem State.hbmSpan_kept (h : Kept s t) (a : Nat) (n : Nat) (e : HbmEcc) : Kept s (State.hbmSpan t a n e).2 := by
  unfold State.hbmSpan
  repeat' with_reducible first
    | assumption | apply State.copyRead_kept

theorem State.busReads_kept (h : Kept s t) (p : Path) (a : Nat) (n : Nat) : Kept s (State.busReads t p a n).2 := by
  unfold State.busReads
  repeat' first
    | with_reducible first | assumption | apply State.busRead_kept | refine foldl_kept ?_ ?_
    | (intro x; refine (show Kept s x → _ from ?_) ?_; (on_goal 1 => clear_value x; intro hx); (on_goal 2 => subst x))
    | (intro x; clear_value x)
    | lift_lets
    | intro _

theorem State.busWrites_kept (h : Kept s t) (p : Path) (dst : Nat) (moved : Nat) (fixed : Bool) (b : List Byte) : Kept s (State.busWrites t p dst moved fixed b) := by
  unfold State.busWrites
  repeat' first
    | with_reducible first | assumption | refine State.ite_kept (fun _ => ?_) (fun _ => ?_) | apply State.busWrite_kept | apply State.each_kept
    | intro _

theorem State.burstRead_kept (h : Kept s t) (d : Fin 4) (spc a n : Nat) (host : List Byte) (e : HbmEcc) :
    Kept s (t.burstRead d spc a n host e).2 := by
  unfold State.burstRead
  split
  · split
    · exact h
    · exact State.hbmSpan_kept h ..
  · split
    · exact h
    · exact State.busReads_kept h ..

theorem State.preqEntry_kept (h : Kept s t) (d : Fin 4) (c : Nat) (q : Nat) : Kept s (State.preqEntry t d c q).2 := by
  unfold State.preqEntry
  repeat' first
    | with_reducible first | assumption | refine State.ite_kept (fun _ => ?_) (fun _ => ?_) | apply State.count_kept | apply msgGet_kept | apply State.put_kept | apply State.resData_kept
    | (intro x; refine (show Kept s x → _ from ?_) ?_; (on_goal 1 => clear_value x; intro hx); (on_goal 2 => subst x))
    | (intro x; clear_value x)
    | lift_lets
    | intro _
    | refine Kept.snd (by with_reducible assumption) ?_
    | refine KeptO.use (by with_reducible assumption) ?_
    | refine KeptP.use (by with_reducible assumption) ?_
    | split

theorem State.preqEntries_kept (h : Kept s t) (d : Fin 4) (c : Nat) (q : Nat) (k : Nat) : Kept s (State.preqEntries t d c q k).2 := by
  unfold State.preqEntries
  repeat' first
    | with_reducible first | assumption | apply State.preqEntry_kept | refine foldl_kept ?_ ?_
    | (intro x; refine (show Kept s x → _ from ?_) ?_; (on_goal 1 => clear_value x; intro hx); (on_goal 2 => subst x))
    | (intro x; clear_value x)
    | lift_lets
    | intro _

theorem State.burstWrite_kept (h : Kept s t) (d : Fin 4) (q : BitVec 256) (m : Nat) (b : List Byte) (u : State)
    (e : t.burstWrite d q m b = .ok u) : Kept s u := by
  unfold State.burstWrite at e
  dsimp only at e
  split at e
  · split at e
    · cases e; exact State.hbmPut_kept h ..
    · cases e
  · split at e
    · split at e
      · cases e; exact State.emit_kept h _
      · cases e
    · cases e; exact State.busWrites_kept h ..

theorem State.burstFail_kept (h : Kept s t) (d : Fin 4) (k : Nat) (w : BurstErr) : Kept s (t.burstFail d k w) := by
  unfold State.burstFail
  split
  · exact State.dmaBusErr_kept h ..
  · exact State.chanFail_kept (State.raise_kept h ..) ..

theorem opDmaBurst_kept (h : Kept s t) (d : Fin 4) (c : Nat) (host : List Byte) (e : HbmEcc) :
    Kept s (opDmaBurst d c host e t) := by
  unfold opDmaBurst
  dsimp only
  split
  · exact h
  · rename_i q _
    refine State.ite_kept (fun _ => h) (fun _ => ?_)
    have hr : Kept s (if dPreq q = 0 then t.burstRead d (dSspc q) (dSrc q + (t.chan (chKey d.val c)).moved)
        ((t.chan (chKey d.val c)).burstLen q) host e
        else (.ok (t.preqEntries d c (dPreq q) (t.chan (chKey d.val c)).entries).1,
          (t.preqEntries d c (dPreq q) (t.chan (chKey d.val c)).entries).2)).2 := by
      split
      · exact State.burstRead_kept h ..
      · exact State.preqEntries_kept h ..
    split
    · rename_i e; rw [e] at hr; exact State.burstFail_kept hr ..
    · rename_i e
      rw [e] at hr
      split
      · exact State.burstFail_kept hr ..
      · rename_i e; exact State.burstDone_kept (State.burstWrite_kept hr _ _ _ _ _ e) ..

theorem State.bar2Gate_kept (h : Kept s t) (a : Nat) (n : Nat) : KeptO s (State.bar2Gate t a n) := by
  unfold State.bar2Gate
  repeat' with_reducible first
    | assumption | refine State.ite_kept (fun _ => ?_) (fun _ => ?_) | apply State.put_kept | apply State.raise_kept | apply State.winterAnswer_kept | exact KeptO.none | apply KeptO.some | apply KeptO.map | refine KeptO.ite (fun _ => ?_) (fun _ => ?_)

theorem opBar2Read_kept (h : Kept s t) (a : Nat) (n : Nat) (e : HbmEcc) : Kept s (opBar2Read a n e t) := by
  unfold opBar2Read
  repeat' first
    | with_reducible first | assumption | refine State.ite_kept (fun _ => ?_) (fun _ => ?_) | apply State.bar2Gate_kept | apply State.emit_kept | apply State.hbmSpan_kept | apply State.raise_kept
    | (intro x; refine (show Kept s x → _ from ?_) ?_; (on_goal 1 => clear_value x; intro hx); (on_goal 2 => subst x))
    | (intro x; clear_value x)
    | lift_lets
    | refine Kept.snd (by with_reducible assumption) ?_
    | refine KeptO.use (by with_reducible assumption) ?_
    | refine KeptP.use (by with_reducible assumption) ?_
    | split

theorem State.wordWrite_kept (h : Kept s t) (w : Nat) (l : List (Option Byte)) (e : HbmEcc) : Kept s (State.wordWrite t w l e) := by
  unfold State.wordWrite
  repeat' first
    | with_reducible first | assumption | refine State.ite_kept (fun _ => ?_) (fun _ => ?_) | apply State.hbmPut_kept | apply State.hbmRead_kept | apply State.iff_kept | apply State.put_kept | apply State.raise_kept | apply KeptO.getD
    | (intro x; refine (show Kept s x → _ from ?_) ?_; (on_goal 1 => clear_value x; intro hx); (on_goal 2 => subst x))
    | (intro x; clear_value x)
    | lift_lets
    | intro _

theorem State.wordWrites_kept (h : Kept s t) (a : Nat) (data : List (Option Byte)) (l : List Nat) (e : HbmEcc) :
    Kept s (t.wordWrites a data l e) := by
  induction l generalizing t e with
  | nil => exact h
  | cons w l ih =>
    unfold State.wordWrites
    dsimp only
    split
    · exact ih h e
    · split
      · exact ih (State.wordWrite_kept h ..) e
      · exact ih (State.wordWrite_kept h ..) .ok

theorem opBar2Write_kept (h : Kept s t) (a : Nat) (data : List (Option Byte)) (e : HbmEcc) : Kept s (opBar2Write a data e t) := by
  unfold opBar2Write
  repeat' first
    | with_reducible first | assumption | refine State.ite_kept (fun _ => ?_) (fun _ => ?_) | apply State.bar2Gate_kept | apply State.wordWrites_kept
    | intro _
    | refine Kept.snd (by with_reducible assumption) ?_
    | refine KeptO.use (by with_reducible assumption) ?_
    | refine KeptP.use (by with_reducible assumption) ?_
    | split

/-! Machine/Boot.lean -/

theorem State.blobApply_kept (h : Kept s t) (b : List Byte) : Kept s (State.blobApply t b) := by
  unfold State.blobApply
  repeat' first
    | with_reducible first | assumption | apply State.busWrite_kept | apply State.each_kept
    | (intro x; refine (show Kept s x → _ from ?_) ?_; (on_goal 1 => clear_value x; intro hx); (on_goal 2 => subst x))
    | (intro x; clear_value x)
    | lift_lets
    | intro _
    | dsimp only
    | with_reducible apply Kept.mk

theorem State.blobLoad_kept (h : Kept s t) (b : List Byte) : Kept s (State.blobLoad t b) := by
  unfold State.blobLoad
  repeat' first
    | with_reducible first | assumption | refine State.ite_kept (fun _ => ?_) (fun _ => ?_) | apply State.blobApply_kept | apply State.cfgErr_kept | apply State.put_kept | apply State.wrf_kept
    | (intro x; refine (show Kept s x → _ from ?_) ?_; (on_goal 1 => clear_value x; intro hx); (on_goal 2 => subst x))
    | (intro x; clear_value x)
    | lift_lets
    | dsimp only
    | with_reducible apply Kept.mk

theorem State.bootIrq_kept (h : Kept s t)  : Kept s (State.bootIrq t) := by
  unfold State.bootIrq
  repeat' first
    | with_reducible first | assumption | apply State.iff_kept | apply State.irq_kept
    | intro _

theorem State.fwImageRead_kept (h : Kept s t) (fw : List Byte) (e : HbmEcc) : Kept s (State.fwImageRead t fw e).2 := by
  unfold State.fwImageRead
  repeat' first
    | with_reducible first | assumption | refine State.ite_kept (fun _ => ?_) (fun _ => ?_) | apply State.copyRead_kept
    | (intro x; refine (show Kept s x → _ from ?_) ?_; (on_goal 1 => clear_value x; intro hx); (on_goal 2 => subst x))
    | (intro x; clear_value x)
    | lift_lets
    | refine Kept.snd (by with_reducible assumption) ?_
    | refine KeptO.use (by with_reducible assumption) ?_
    | refine KeptP.use (by with_reducible assumption) ?_
    | split

theorem opFirmwareLoad_kept (h : Kept s t) (fw blob : List Byte) (e : HbmEcc) : Kept s (opFirmwareLoad fw blob e t) := by
  have hr := State.fwImageRead_kept h fw e
  unfold opFirmwareLoad
  dsimp only
  refine State.ite_kept (fun _ => h) (fun _ => ?_)
  generalize t.fwImageRead fw e = r at hr ⊢
  obtain ⟨f, u⟩ := r
  dsimp only at hr ⊢
  refine State.ite_kept (fun _ => State.bootIrq_kept (State.wrf_kept (State.put_kept (State.wrf_kept hr ..) ..) ..)) (fun _ => ?_)
  exact State.bootIrq_kept (opCirLoad_kept (State.put_kept (State.wrf_kept (State.blobLoad_kept (State.wrf_kept hr ..) _) ..) ..))

/-! Machine/HostLink.lean -/

theorem State.functionReset_kept (h : Kept s t) : Kept s t.functionReset := by
  unfold State.functionReset
  refine State.iff_kept ?_ (fun u k => State.put_kept k ..)
  exact ⟨h.1, fun x => tableWf_filter _ _ _ (h.2 x)⟩

theorem State.linkLost_kept (h : Kept s t)  : Kept s (State.linkLost t) := by
  unfold State.linkLost
  repeat' first
    | with_reducible first | assumption | apply State.put_kept
    | dsimp only
    | with_reducible apply Kept.mk

theorem opLinkUp_kept (h : Kept s t) (width : BitVec 6) (speed : BitVec 3) (bme : Bool) : Kept s (opLinkUp width speed bme t) := by
  unfold opLinkUp
  repeat' first
    | with_reducible first | assumption | refine State.ite_kept (fun _ => ?_) (fun _ => ?_) | apply State.wr_kept
    | dsimp only
    | with_reducible apply Kept.mk

theorem State.msixSend_kept (h : Kept s t)  : Kept s (State.msixSend t) := by
  unfold State.msixSend
  repeat' with_reducible first
    | assumption | refine State.ite_kept (fun _ => ?_) (fun _ => ?_) | apply State.msixFlush_kept

theorem opMsixUnmask_kept (h : Kept s t) (u : Unmask) : Kept s (opMsixUnmask u t) := by
  unfold opMsixUnmask
  repeat' first
    | with_reducible first | assumption | apply State.host_kept | apply State.msixSend_kept | apply State.wr_kept
    | intro _
    | refine Kept.snd (by with_reducible assumption) ?_
    | refine KeptO.use (by with_reducible assumption) ?_
    | refine KeptP.use (by with_reducible assumption) ?_
    | split
    | dsimp only
    | with_reducible apply Kept.mk

/-! Machine/Chain.lean -/

theorem State.chainBits_kept (h : Kept s t) (len : Nat) (code : BitVec 8) (addr : Word) (ws : List Word) : Kept s (State.chainBits t len code addr ws).2 := by
  unfold State.chainBits
  repeat' with_reducible first
    | assumption | apply State.free_kept

theorem State.chnSet_kept (h : Kept s t) (i : Nat) : Kept s (State.chnSet t i) := by
  unfold State.chnSet
  repeat' first
    | with_reducible first | assumption | apply State.iff_kept | apply State.irq_kept | apply State.put_kept
    | intro _

theorem State.chnAnswer_kept (h : Kept s t) (status : BitVec 8) : Kept s (State.chnAnswer t status) := by
  unfold State.chnAnswer
  repeat' with_reducible first
    | assumption | apply State.modChn_kept

theorem State.chnDiscard_kept (h : Kept s t) (i : Nat) (count : Nat) : Kept s (State.chnDiscard t i count) := by
  unfold State.chnDiscard
  repeat' with_reducible first
    | assumption | apply State.chnAnswer_kept | apply State.chnSet_kept | apply State.count_kept | apply State.wr_kept

theorem State.chnCmdErr_kept (h : Kept s t)  : Kept s (State.chnCmdErr t) := by
  unfold State.chnCmdErr
  repeat' with_reducible first
    | assumption | refine State.ite_kept (fun _ => ?_) (fun _ => ?_) | apply State.chnAnswer_kept | apply State.chnSet_kept | apply State.modChn_kept

theorem State.chainResponse_kept (h : Kept s t)  : Kept s (State.chainResponse t).2 := by
  unfold State.chainResponse
  repeat' first
    | with_reducible first | assumption | refine State.ite_kept (fun _ => ?_) (fun _ => ?_) | apply State.modChn_kept
    | intro _
    | refine Kept.snd (by with_reducible assumption) ?_
    | refine KeptO.use (by with_reducible assumption) ?_
    | refine KeptP.use (by with_reducible assumption) ?_
    | split

theorem opSelectFall_kept (h : Kept s t)  : Kept s (opSelectFall t) := by
  unfold opSelectFall
  repeat' with_reducible first
    | assumption | refine State.ite_kept (fun _ => ?_) (fun _ => ?_) | apply State.chainBits_kept | apply State.chainResponse_kept | apply State.emit_kept | apply State.modChn_kept

theorem State.chainFrame_kept (h : Kept s t) (count : Nat) (short : Bool) (b : List Bool) (f : State → State) (_ : ∀ u, Kept s u → Kept s (f u)) : Kept s (State.chainFrame t count short b f) := by
  unfold State.chainFrame
  repeat' first
    | with_reducible first | assumption | refine State.ite_kept (fun _ => ?_) (fun _ => ?_) | apply State.chnCmdErr_kept | apply State.chnDiscard_kept | apply State.modChn_kept
    | (intro x; refine (show Kept s x → _ from ?_) ?_; (on_goal 1 => clear_value x; intro hx); (on_goal 2 => subst x))
    | (intro x; clear_value x)
    | lift_lets
    | intro _
    | dsimp only
    | solve_by_elim

theorem State.chainCmd_kept (h : Kept s t) (count : Nat) (code : BitVec 8) (addr : Option Word) (ws : Option (List Word)) (f : State → State) (_ : ∀ u, Kept s u → Kept s (f u)) : Kept s (State.chainCmd t count code addr ws f) := by
  unfold State.chainCmd
  repeat' first
    | with_reducible first | assumption | refine State.ite_kept (fun _ => ?_) (fun _ => ?_) | apply State.chainBits_kept | apply State.chainFrame_kept | apply State.free_kept | apply KeptO.getD | refine foldl_kept ?_ ?_
    | (intro x; refine (show Kept s x → _ from ?_) ?_; (on_goal 1 => clear_value x; intro hx); (on_goal 2 => subst x))
    | (intro x; clear_value x)
    | lift_lets
    | intro _

theorem opFrameDiscard_kept (h : Kept s t) (count : Nat) (frame : List Bool) : Kept s (opFrameDiscard count frame t) := by
  unfold opFrameDiscard
  repeat' first
    | with_reducible first | assumption | refine State.ite_kept (fun _ => ?_) (fun _ => ?_) | apply State.chainFrame_kept | apply State.chnCmdErr_kept | apply State.chnDiscard_kept
    | (intro x; refine (show Kept s x → _ from ?_) ?_; (on_goal 1 => clear_value x; intro hx); (on_goal 2 => subst x))
    | (intro x; clear_value x)
    | lift_lets
    | intro _

theorem chainWord_kept (stop : Option Nat) (step : Nat) (v : Option Word) (r : ChainWalk × State) (h : Kept s r.2) :
    Kept s (chainWord stop step v r).2 := by
  obtain ⟨w, u⟩ := r
  unfold chainWord
  dsimp only
  split
  · exact h
  · split
    · exact State.busRead_kept h ..
    · exact State.busWrite_kept h ..

theorem State.chainRun_kept (r : ChainWalk × State) (h : Kept s r.2) (a : Nat) : Kept s (State.chainRun r a) := by
  unfold State.chainRun
  exact State.modChn_kept (State.iff_kept h fun u k => State.chnSet_kept k _) _

theorem opChainRead_kept (h : Kept s t) (a : Nat) : Kept s (opChainRead a t) := by
  unfold opChainRead
  exact State.chainRun_kept _ (foldl_kept h fun r _ k => chainWord_kept _ _ _ r k) _

theorem opChainWrite_kept (h : Kept s t) (a : Nat) (data : List Word) : Kept s (opChainWrite a data t) := by
  have k : Kept s (data.foldl (fun r v => chainWord (chainEnd a) 4 (some v) r) (({ a := a } : ChainWalk), t)).2 :=
    foldl_kept h fun r _ k => chainWord_kept _ _ _ r k
  unfold opChainWrite
  generalize data.foldl (fun r v => chainWord (chainEnd a) 4 (some v) r) (({ a := a } : ChainWalk), t) = r at k ⊢
  exact State.chainRun_kept (_, r.2) k r.1.a

theorem opChainFixed_kept (h : Kept s t) (a : Nat) : Kept s (opChainFixed a t) := by
  unfold opChainFixed
  exact State.chainRun_kept _ (foldl_kept h fun r _ k => chainWord_kept _ _ _ r k) _

end

end Sys2Proof.Machine
end

section
/-! SUPPORT. The proofs about MVS and the branches of the FLOW group: what symbol X does to the lanes, what an engine's slot and
stop change, what the issue of an instruction that is no vector issue comes to, and what the actions of these instructions do. -/

namespace Sys2Proof.Machine

section
variable {s t u v : State} {e : Nat} {y z : Eng}

/-! Symbol X holds the lanes (R74, R129) -/

/-- Two records of a lane that differ in the counts of quiet vectors at most. -/
def SameLevel (x y : Lane) : Prop :=
  { x with quiet := 0, q8from := 0, q8to := 0 } = { y with quiet := 0, q8from := 0, q8to := 0 }

theorem symAt_vecX {l : Nat} (hl : l < 16) (j : Nat) : symAt vecX l j = 6 := by
  have hword : (vecX.getD j (vecX.headD 0)) = 0x6666666666666666 := by cases j <;> rfl
  unfold symAt
  rw [hword]
  interval_cases l <;> rfl

theorem laneSyms_vecX {l : Nat} (hl : l < 16) (n u : Nat) : ∀ y ∈ s.laneSyms n l u vecX, y = 6 := by
  intro y hy
  unfold State.laneSyms at hy
  split at hy
  · obtain ⟨j, -, rfl⟩ := List.mem_map.mp hy
    exact symAt_vecX hl j
  · exact List.mem_singleton.mp hy

theorem foldl_sym_six {ys : List Nat} (h : ∀ y ∈ ys, y = 6) (x : Lane) : ys.foldl Lane.sym x = x := by
  induction ys with
  | nil => rfl
  | cons y ys ih =>
    obtain ⟨rfl, hys⟩ := List.forall_mem_cons.mp h
    exact ih hys

theorem quietRun_sameLevel (x : Lane) (k t per : Nat) : SameLevel (x.quietRun k t per) x := by
  unfold Lane.quietRun
  dsimp only
  split <;> rfl

theorem lanePeriods_vecX {l : Nat} (hl : l < 16) (n u k t per : Nat) :
    SameLevel (s.lanePeriods n l u k t per vecX) (s.lane (16 * n + l)) := by
  have hstep := foldl_sym_six (laneSyms_vecX (s := s) hl n u)
  unfold State.lanePeriods
  simp only [hstep, ite_self]
  split
  · rfl
  · split
    · exact quietRun_sameLevel ..
    · split <;> rfl

/-- What holds before a list of changes, and what each of them keeps, holds after them. -/
theorem each_induction {α : Type} {P : State → Prop} {l : List α} {f : State → α → State} (h : P s)
    (hstep : ∀ r a, a ∈ l → P r → P (f r a)) : P (s.each l f) :=
  List.foldlRecOn l f h fun r hr a ha => hstep r a ha hr

theorem applyVec_lanesOnly (n : Nat) (u : Nat → Nat) (k : Nat) (vec : List Word64) (t per : Nat) :
    ∃ l, s.applyVec n u k vec t per = { s with lanes := l } :=
  each_induction (P := fun r => ∃ l, r = { s with lanes := l }) ⟨s.lanes, rfl⟩
    (by rintro _ _ - ⟨_, rfl⟩; exact ⟨_, rfl⟩)

theorem applyVec_eng (n : Nat) (u : Nat → Nat) (k : Nat) (vec : List Word64) (t per j : Nat) :
    (s.applyVec n u k vec t per).eng j = s.eng j := by
  obtain ⟨l, hl⟩ := applyVec_lanesOnly (s := s) n u k vec t per
  rw [hl]
  rfl

theorem applyVec_vecX_lane (n : Nat) (u : Nat → Nat) (k t per j : Nat) :
    SameLevel ((s.applyVec n u k vecX t per).lane j) (s.lane j) := by
  refine each_induction (P := fun r => SameLevel (r.lane j) (s.lane j)) rfl fun r l hl hr => ?_
  rw [State.setLane_lane]
  split
  · next h => subst h; exact (lanePeriods_vecX (List.mem_range.mp hl) ..).trans hr
  · exact hr

/-! An engine's record replaced, and the slot its instruction fills -/

/-- v is u, but that engine e holds z. -/
def EngSet (u v : State) (e : Nat) (z : Eng) : Prop :=
  v.eng e = z ∧ (∀ k, k ≠ e → v.eng k = u.eng k) ∧ ∃ g, v = { u with engs := g }

theorem engSet_setEng (u : State) (e : Nat) (z : Eng) : EngSet u (u.setEng e z) e z :=
  ⟨by simp, fun k hk => by simp [hk], _, rfl⟩

theorem EngSet.setEng (h : EngSet u v e y) (z : Eng) : EngSet u (v.setEng e z) e z := by
  obtain ⟨-, hk, g, hg⟩ := h
  exact ⟨by simp, fun k hne => by simp [hne, hk k hne], _, by rw [hg]; rfl⟩

theorem EngSet.modEng (h : EngSet u v e y) (f : Eng → Eng) : EngSet u (v.modEng e f) e (f y) := by
  rw [State.modEng_eq, h.1]
  exact h.setEng _

/-- Two records of an engine that agree in whether it runs, whether its code is timed, and its slots. -/
def SameSlots (y z : Eng) : Prop :=
  z.st = y.st ∧ z.timed = y.timed ∧ z.slot = y.slot ∧ z.slotAt = y.slotAt ∧ z.secLen = y.secLen

theorem SameSlots.refl (y : Eng) : SameSlots y y := ⟨rfl, rfl, rfl, rfl, rfl⟩

theorem plainSlot_enginesAndLanesOnly (v : State) (e : Nat) :
    ∃ g l, v.plainSlot e = { v with engs := g, lanes := l } := by
  unfold State.plainSlot
  dsimp only
  split
  · exact ⟨v.engs, v.lanes, rfl⟩
  · split
    · obtain ⟨l, h⟩ := applyVec_lanesOnly (s := v) e (v.uis e (v.eng e).ts.toNat) 1 vecX (v.eng e).slotAt
        (v.period e (v.eng e).ts.toNat)
      exact ⟨_, l, by rw [h]; rfl⟩
    · exact ⟨_, v.lanes, rfl⟩

theorem plainSlot_of_not_timed (h : (v.eng e).timed = false) : v.plainSlot e = v := by
  simp [State.plainSlot, h]

/-- One more slot of timed code, after changes of the lanes that hold their levels. -/
theorem engIs_modEng_of_slot {w : State} {f : Eng → Eng} (htimed : (v.eng e).timed = true) (hother : ∀ k, w.eng k = v.eng k)
    (hlevel : ∀ k, SameLevel (w.lane k) (v.lane k)) (hsame : SameEng (f (v.eng e)) (v.eng e))
    (hslot : (f (v.eng e)).slot = (v.eng e).slot + 1) : EngIs v (w.modEng e f) e (v.eng e) := by
  rw [State.modEng_eq, hother]
  refine ⟨⟨?_, ?_, fun k hk => ?_⟩, fun hno => ?_, hlevel⟩
  · simpa using hsame
  · simp [OneSlot, htimed, hslot]
  · simp [hk, hother]
  · rw [htimed] at hno; cases hno

/-- The slot of an instruction that is no vector issue: its engine is as the instruction left it but for its slots, and
the lanes hold their levels. -/
theorem plainSlot_engIs (v : State) (e : Nat) : EngIs v (v.plainSlot e) e (v.eng e) := by
  by_cases htimed : (v.eng e).timed = true
  case neg =>
    have hno : (v.eng e).timed = false := by simpa using htimed
    rw [plainSlot_of_not_timed hno]
    exact ⟨⟨rfl, by simp [OneSlot, hno], fun _ _ => rfl⟩, fun _ => rfl, fun _ => rfl⟩
  by_cases hrun : (v.eng e).st = .running
  case neg =>
    have hsame : v.plainSlot e = v := by simp [State.plainSlot, hrun]
    rw [hsame]
    exact ⟨⟨rfl, by simp [OneSlot, htimed, hrun], fun _ _ => rfl⟩, fun _ => rfl, fun _ => rfl⟩
  by_cases hpe : e < 64
  · have hslot : v.plainSlot e = (v.applyVec e (v.uis e (v.eng e).ts.toNat) 1 vecX (v.eng e).slotAt
        (v.period e (v.eng e).ts.toNat)).modEng e (fun x =>
          { x with slot := x.slot + 1, slotAt := x.slotAt + v.period e (v.eng e).ts.toNat,
                   secLen := x.secLen + v.period e (v.eng e).ts.toNat }) := by
      simp only [State.plainSlot, htimed, hrun, hpe]
      rfl
    rw [hslot]
    exact engIs_modEng_of_slot htimed (fun k => applyVec_eng ..) (fun k => applyVec_vecX_lane ..) rfl rfl
  · have hslot : v.plainSlot e = v.modEng e (fun x => { x with slot := x.slot + 1, secLen := x.secLen + 1 }) := by
      simp [State.plainSlot, htimed, hrun, hpe]
    rw [hslot]
    exact engIs_modEng_of_slot htimed (fun _ => rfl) (fun _ => rfl) rfl rfl

theorem engIs_plainSlot (he : v.eng e = z) (hk : ∀ k, k ≠ e → v.eng k = u.eng k) (hl : v.lanes = u.lanes)
    (hs : SameSlots (u.eng e) z) : EngIs u (v.plainSlot e) e z := by
  obtain ⟨⟨hsame, hone, hother⟩, hfree, hlevel⟩ := plainSlot_engIs v e
  obtain ⟨hst, htimed, hslot, hat, hlen⟩ := hs
  have hlane : ∀ k, v.lane k = u.lane k := fun k => by unfold State.lane; rw [hl]
  rw [he] at hsame hone hfree
  refine ⟨⟨hsame, ?_, fun k hne => (hother k hne).trans (hk k hne)⟩, ?_, fun k => ?_⟩
  · simpa only [OneSlot, hst, htimed, hslot, hat, hlen] using hone
  · rw [← htimed, ← hl]; exact hfree
  · rw [hlevel k, hlane k]

theorem EngSet.becomes_plainSlot (h : EngSet u v e z) (hs : SameSlots (u.eng e) z) : Becomes u e z (v.plainSlot e) := by
  obtain ⟨he, hk, g, hg⟩ := h
  obtain ⟨g', l, hp⟩ := plainSlot_enginesAndLanesOnly v e
  exact ⟨engIs_plainSlot he hk (by rw [hg]) hs, by rw [hp, hg]⟩

/-! An engine stops (R82, R86): its pins or its port, its measurements, and its own record -/

/-- From s to t no register has changed, no fault was raised, and every engine's return stack is as it was. -/
def StacksKept (s t : State) : Prop := t.bar = s.bar ∧ t.faults = s.faults ∧ ∀ k, (t.eng k).rs = (s.eng k).rs

theorem StacksKept.refl (s : State) : StacksKept s s := ⟨rfl, rfl, fun _ => rfl⟩

theorem StacksKept.trans (h : StacksKept s t) (k : StacksKept t u) : StacksKept s u :=
  ⟨k.1.trans h.1, k.2.1.trans h.2.1, fun j => (k.2.2 j).trans (h.2.2 j)⟩

theorem StacksKept.setPe (h : StacksKept s t) (n : Nat) (x : Pe) : StacksKept s (t.setPe n x) := h
theorem StacksKept.setTx (h : StacksKept s t) (n : Nat) (x : TxPort) : StacksKept s (t.setTx n x) := h
theorem StacksKept.setRx (h : StacksKept s t) (n : Nat) (x : RxPort) : StacksKept s (t.setRx n x) := h
theorem StacksKept.setTdc (h : StacksKept s t) (k : Nat) (x : Tdc) : StacksKept s (t.setTdc k x) := h

theorem StacksKept.modEng (h : StacksKept s t) (e : Nat) {f : Eng → Eng} (hf : ∀ y, (f y).rs = y.rs) :
    StacksKept s (t.modEng e f) := by
  refine h.trans ⟨rfl, rfl, fun k => ?_⟩
  rw [State.modEng_eq, State.setEng_eng]
  split
  · next hk => rw [hf, hk]
  · rfl

theorem applyVec_stacksKept (s : State) (n : Nat) (u : Nat → Nat) (k : Nat) (vec : List Word64) (t per : Nat) :
    StacksKept s (s.applyVec n u k vec t per) := by
  obtain ⟨l, hl⟩ := applyVec_lanesOnly (s := s) n u k vec t per
  rw [hl]
  exact ⟨rfl, rfl, fun _ => rfl⟩

theorem bankStarve_stacksKept (s : State) (n : Nat) (ts : Option (BitVec 6)) : StacksKept s (s.bankStarve n ts) :=
  (applyVec_stacksKept s ..).setPe ..

theorem reanchor_stacksKept (s : State) (n pos : Nat) : StacksKept s (s.reanchor n pos) := by
  unfold State.reanchor
  split
  · exact ((StacksKept.refl s).setRx ..).setTx ..
  · exact StacksKept.refl s

theorem txHalt_stacksKept (s : State) (n pos : Nat) (st : TxSt) : StacksKept s (s.txHalt n pos st) :=
  (reanchor_stacksKept s n pos).setTx ..

/-- A marker override is a setting of its port alone (R229). -/
theorem marksNow_stacksKept (s : State) (n : Nat) : StacksKept s (s.marksNow n) := by
  unfold State.marksNow
  refine each_induction ((StacksKept.refl s).setTx ..) fun r d hd hr => ?_
  have hmark := (List.mem_filter.mp hd).2
  cases hpar : d.par with
  | mark rel sel lev => exact hr.setTx ..
  | _ => simp [hpar] at hmark

theorem txSlotStop_stacksKept (s : State) (n : Nat) : StacksKept s (s.txSlotStop n) := by
  unfold State.txSlotStop
  split
  · exact StacksKept.refl s
  · exact ((txHalt_stacksKept s n ..).trans (marksNow_stacksKept _ n)).setTx ..

theorem slotOut_stacksKept (s : State) (e : Nat) (ts : Option (BitVec 6)) : StacksKept s (s.slotOut e ts) := by
  unfold State.slotOut
  split
  · exact bankStarve_stacksKept s e ts
  · exact txSlotStop_stacksKept s (e - 64)

@[simp] theorem setReg_rs (y : Eng) (r : Gr) (v : Word64) : (y.setReg r v).rs = y.rs := by
  unfold Eng.setReg
  split <;> rfl

theorem done_rs (y : Eng) (k : Nat) (v : Word64) : (y.done k v).rs = y.rs := by
  unfold Eng.done
  split
  · exact setReg_rs ..
  · rfl

theorem tdcCancel_stacksKept (s : State) (n t : Nat) : StacksKept s (s.tdcCancel n t) := by
  unfold State.tdcCancel
  dsimp only
  split
  · exact StacksKept.refl s
  · split
    · exact ((StacksKept.refl s).setTdc ..).modEng n fun y => done_rs ..
    · exact (StacksKept.refl s).setTdc ..

theorem tdcCancelBank_stacksKept (s : State) (n : Nat) : StacksKept s (s.tdcCancelBank n) :=
  (tdcCancel_stacksKept s n 0).trans (tdcCancel_stacksKept _ n 1)

theorem StacksKept.of_wr {a : Nat} {x : Word} (h : StacksKept (s.wr a x) t) :
    t.rd a = x ∧ t.faults = s.faults ∧ ∀ k, (t.eng k).rs = (s.eng k).rs := by
  obtain ⟨hbar, hfaults, hrs⟩ := h
  refine ⟨?_, hfaults, hrs⟩
  unfold State.rd
  rw [hbar]
  exact tget_tset_self ..

/-- The state r in which a stop writes its engine's record has STOP_INFO, and no new fault. -/
theorem engStop_eq (s : State) (e reason addr : Nat) (past : Bool) :
    ∃ r : State, r.rd (engA e 0x010) = stopInfo reason (s.eng e).timed past addr ∧ r.faults = s.faults ∧
      (r.eng e).rs = (s.eng e).rs ∧
      s.engStop e reason addr past = r.setEng e { r.eng e with
        st := .stopping, wait := .none, pc := addr, lastPc := addr, timed := false, slot := 0, slotAt := r.now,
        stopPend := false, suspPend := false, atTick := none, gapDone := false, throttled := false } := by
  unfold State.engStop State.engStopOut
  generalize engA e 0x010 = a
  extract_lets y s1 s2 s3
  have hout : StacksKept s1 s2 := by
    unfold s2
    split
    · exact slotOut_stacksKept ..
    · exact StacksKept.refl _
  have hbank : StacksKept s1 s3 := by
    unfold s3 State.iff
    split
    · exact (hout.setPe ..).trans (tdcCancelBank_stacksKept _ e)
    · exact hout
  obtain ⟨hinfo, hfaults, hrs⟩ := hbank.of_wr
  exact ⟨s3, hinfo, hfaults, hrs e, rfl⟩

theorem engStop_stops (s : State) (e reason addr : Nat) (past : Bool) :
    Stops s (s.engStop e reason addr past) e reason addr past := by
  obtain ⟨r, hinfo, -, -, h⟩ := engStop_eq s e reason addr past
  rw [h]
  simp [Stops, hinfo, stopInfo]

theorem engStop_rs (s : State) (e reason addr : Nat) (past : Bool) :
    ((s.engStop e reason addr past).eng e).rs = (s.eng e).rs := by
  obtain ⟨r, -, -, hrs, h⟩ := engStop_eq s e reason addr past
  rw [h, State.setEng_eng, if_pos rfl]
  exact hrs

theorem engStop_faults (s : State) (e reason addr : Nat) (past : Bool) :
    (s.engStop e reason addr past).faults = s.faults := by
  obtain ⟨r, -, hfaults, -, h⟩ := engStop_eq s e reason addr past
  rw [h]
  exact hfaults

theorem Stops.untimed {reason addr : Nat} {past : Bool} (h : Stops s t e reason addr past) : (t.eng e).timed = false := by
  obtain ⟨-, -, -, htimed, -⟩ := h
  exact htimed

theorem engIdx_eq_mod (he : e < 96) : engIdx e = e % 64 := by
  unfold engIdx
  split <;> omega

/-- R64: ILLEGAL at an instruction stops the engine there and raises the fault; the return stack stays. -/
theorem illegal_stops (v : State) (he : e < 96) (addr : Nat) :
    Stops v (v.illegal e addr) e 4 addr false ∧ ((v.illegal e addr).eng e).rs = (v.eng e).rs ∧
      Raises v (v.illegal e addr) 3 2 (if e < 64 then 1 else 2) (e % 64) := by
  unfold State.illegal
  refine ⟨engStop_stops (v.engFault e clsIllegal 2) e 4 addr false, engStop_rs .., ?_⟩
  unfold Raises
  rw [engStop_faults, ← engIdx_eq_mod he]
  rfl

/-! The path of the fetch (R138, R139) changes the Pattern Engine beside the engine, in what it holds fetched -/

/-- A Pattern Engine without what is held fetched for it. -/
def Pe.unfetched (p : Pe) : Pe := { p with lbuf := none, vcache := [] }

/-- From v to t at most the loop buffer and the cache of PE e have changed. -/
def FetchOnly (v t : State) (e : Nat) : Prop :=
  (∃ p, t = { v with pes := p }) ∧ (∀ n, n ≠ e → t.pe n = v.pe n) ∧ (t.pe e).unfetched = (v.pe e).unfetched

theorem FetchOnly.refl (v : State) (e : Nat) : FetchOnly v v e := ⟨⟨v.pes, rfl⟩, fun _ _ => rfl, rfl⟩

theorem FetchOnly.setPe (h : FetchOnly v t e) {p : Pe} (hp : p.unfetched = (t.pe e).unfetched) :
    FetchOnly v (t.setPe e p) e := by
  obtain ⟨⟨q, rfl⟩, hother, hsame⟩ := h
  exact ⟨⟨_, rfl⟩, fun n hn => by simpa [hn] using hother n hn, by simpa using hp.trans hsame⟩

theorem FetchOnly.loopPass (h : FetchOnly v t e) (lo hi : Nat) : FetchOnly v (t.loopPass e lo hi) e := by
  unfold State.loopPass
  extract_lets p vs inner
  split
  · exact h.setPe rfl
  · exact h

theorem path_fetchOnly (v : State) (x : Iss) (f : Form) (pc : Nat) : FetchOnly v (v.path x f pc) x.eng.val := by
  have hrefl := FetchOnly.refl v x.eng.val
  unfold State.path
  extract_lets e taken
  split
  · exact hrefl
  · split
    · exact hrefl
    · extract_lets back r
      have hpass : FetchOnly v r e := by
        unfold r
        split
        · exact hrefl.loopPass ..
        · exact hrefl.setPe (by dsimp only; split <;> rfl)
      unfold State.iff
      split
      · exact hpass.setPe rfl
      · exact hpass

theorem path_of_no_target {f : Form} (h : f.target = none) (v : State) (x : Iss) (pc : Nat) : v.path x f pc = v := by
  simp [State.path, h]

theorem EngIs.fetchOnly (h : EngIs u v e z) {n : Nat} (hp : FetchOnly v t n) : EngIs u t e z := by
  obtain ⟨⟨p, rfl⟩, -, -⟩ := hp
  exact h

theorem FetchOnly.fetchPathOnly (h : FetchOnly v t e) (hv : { v with engs := u.engs, lanes := u.lanes } = u) :
    FetchPathOnly u t e := by
  obtain ⟨⟨p, rfl⟩, hother, hsame⟩ := h
  have hpes : v.pes = u.pes := by rw [← hv]
  have hpe : ∀ n, v.pe n = u.pe n := fun n => by unfold State.pe; rw [hpes]
  refine ⟨?_, fun n hn => (hother n hn).trans (hpe n), hsame.trans (by rw [hpe e]; rfl)⟩
  rw [← hpes]
  exact hv

/-! An instruction that is no vector issue and whose conditions hold (R62, R71, R313) -/

@[simp] theorem moved_lastPc (y : Eng) : (moved y).lastPc = y.pc := rfl
@[simp] theorem moved_reg (y : Eng) (r : Gr) : (moved y).reg r = y.reg r := rfl
@[simp] theorem moved_ctr (y : Eng) (c : Fin 8) : (moved y).ctr c = y.ctr c := rfl
@[simp] theorem moved_timed (y : Eng) : (moved y).timed = y.timed := rfl
@[simp] theorem moved_slot (y : Eng) : (moved y).slot = y.slot := rfl
@[simp] theorem moved_flags (y : Eng) : (moved y).flags = y.flags := rfl
@[simp] theorem moved_preds (y : Eng) : (moved y).preds = y.preds := rfl
@[simp] theorem moved_tagMask (y : Eng) : (moved y).tagMask = y.tagMask := rfl
@[simp] theorem moved_rs (y : Eng) : (moved y).rs = y.rs := rfl
@[simp] theorem moved_ts (y : Eng) : (moved y).ts = y.ts := rfl

/-- The state in which an instruction acts: the program counter of its engine has moved past it. -/
def actsIn (u : State) (e : Nat) : State := u.setEng e (moved (u.eng e))

theorem actsIn_engSet (u : State) (e : Nat) : EngSet u (actsIn u e) e (moved (u.eng e)) := engSet_setEng ..

@[simp] theorem actsIn_eng (u : State) (e : Nat) : (actsIn u e).eng e = moved (u.eng e) :=
  (actsIn_engSet u e).1

theorem Issues.operandsOk {x : Iss} {f : Form} (h : Issues s x f) : f.ok = true := by
  obtain ⟨-, ⟨-, hok, -⟩, -⟩ := h
  exact hok

section
variable {x : Iss} {f : Form} {body : State → State} (h : Issues s x f) (hvec : f.vec = none) (hkeep : f.keepAt = false)
  (hu : issueAt s x.eng.val = u)
include h hvec hkeep hu

/-- The instruction acts, fills its slot, and its path is taken. -/
theorem issue_eq_path :
    s.issue x f body = ((body (actsIn u x.eng.val)).plainSlot x.eng.val).path x f (u.eng x.eng.val).pc := by
  obtain ⟨⟨hready, hfetch⟩, ⟨haccepts, hok, htimedOk⟩, hucode, hguard, hfree, hstall⟩ := h
  have hissue : s.issue x f body = State.decoded s u x f body := by
    simp [State.issue, hready, hfetch, State.iff, ← hu, issueAt]
  rw [hu] at htimedOk hguard hfree hstall
  have hdecoded : State.decoded s u x f body = State.execute s u x f body := by
    have htimed : ((u.eng x.eng.val).timed && !f.timedOk) = false := by
      cases htm : (u.eng x.eng.val).timed with
      | false => rfl
      | true => simp [htimedOk htm]
    simp [State.decoded, haccepts, hok, htimed, hguard]
  have hexec : State.execute s u x f body = (u.run x.eng.val f body).path x f (u.eng x.eng.val).pc := by
    rcases hstall with h | h <;> simp [State.execute, hucode, hfree, h, State.iff]
  rw [hissue, hdecoded, hexec]
  simp [State.run, State.fillSlots, hvec, hkeep, State.modEng_eq, moved, actsIn]

/-- What an executed instruction leaves is the record of its engine, but for the slot it fills, and the PE's fetch path. -/
theorem issue_engIs (hbody : EngSet u (body (actsIn u x.eng.val)) x.eng.val z) (hslots : SameSlots (u.eng x.eng.val) z) :
    FetchPathOnly u (s.issue x f body) x.eng.val ∧ EngIs u (s.issue x f body) x.eng.val z := by
  obtain ⟨heng, hrest⟩ := hbody.becomes_plainSlot hslots
  rw [issue_eq_path h hvec hkeep hu]
  exact ⟨(path_fetchOnly ..).fetchPathOnly hrest, heng.fetchOnly (path_fetchOnly ..)⟩

/-- The same where it is no relative branch: nothing but its engine and the lanes changes. -/
theorem issue_becomes (htarget : f.target = none) (hbody : EngSet u (body (actsIn u x.eng.val)) x.eng.val z)
    (hslots : SameSlots (u.eng x.eng.val) z) : Becomes u x.eng.val z (s.issue x f body) := by
  rw [issue_eq_path h hvec hkeep hu, path_of_no_target htarget]
  exact hbody.becomes_plainSlot hslots

/-- An instruction whose action finds it ILLEGAL, after changes of its engine's record that leave the return stack, stops its
engine at its own address (R65). -/
theorem issue_stops (hv : EngSet u v x.eng.val z) (htimed : z.timed = (u.eng x.eng.val).timed)
    (hrs : z.rs = (u.eng x.eng.val).rs)
    (hbody : body (actsIn u x.eng.val) = v.illegal x.eng.val (u.eng x.eng.val).pc) :
    Stops u (s.issue x f body) x.eng.val 4 (u.eng x.eng.val).pc false ∧
      ((s.issue x f body).eng x.eng.val).rs = (u.eng x.eng.val).rs ∧
      Raises u (s.issue x f body) 3 2 (if x.eng.val < 64 then 1 else 2) (x.eng.val % 64) := by
  rw [issue_eq_path h hvec hkeep hu, hbody]
  obtain ⟨hstop, hstack, hraise⟩ := illegal_stops v x.eng.isLt (u.eng x.eng.val).pc
  obtain ⟨hz, -, g, rfl⟩ := hv
  have huntimed : ((State.illegal _ x.eng.val (u.eng x.eng.val).pc).eng x.eng.val).timed = false := hstop.untimed
  obtain ⟨⟨p, hpath⟩, -, -⟩ := path_fetchOnly (State.illegal _ x.eng.val (u.eng x.eng.val).pc) x f (u.eng x.eng.val).pc
  rw [plainSlot_of_not_timed huntimed, hpath]
  refine ⟨?_, hstack.trans (by rw [hz, hrs]), hraise⟩
  unfold Stops at hstop ⊢
  rw [← htimed, ← hz]
  exact hstop

end

/-! MVS (R56, R57) -/

theorem full_eq_ofNat (u : State) : u.full = BitVec.ofNat 64 (u.epoch.toNat * 2 ^ 48 + u.wtc.toNat) := by
  refine BitVec.eq_of_toNat_eq ?_
  have := u.epoch.isLt
  have := u.wtc.isLt
  rw [State.full, BitVec.toNat_append, ← Nat.shiftLeft_add_eq_or_of_lt u.wtc.isLt, Nat.shiftLeft_eq, BitVec.toNat_ofNat]
  omega

/-- What MVS reads of the special registers is what they held at its issue: the program counter is none of them. -/
theorem actsIn_special (u : State) (e : Nat) (num : BitVec 8) : (actsIn u e).special e num = specialOf u e num := by
  have hfull : (actsIn u e).full = _ := full_eq_ofNat u
  unfold State.special specialOf
  rw [actsIn_eng, hfull]
  generalize num.toNat = n
  match n with
  | 3 => exact congrArg some (ite_congr rfl (fun _ => (BitVec.ofNat_toNat ..).symm) fun _ => rfl)
  | 0 | 1 | 2 | 4 | 6 | 7 | 8 | 9 | 10 | 11 => simp [actsIn]
  | 5 => simp [actsIn, State.rdf, fld]
  | n + 12 => rfl

theorem setSpecial_sites (he : e < 64) (v : Word64) :
    u.setSpecial e 11 v = some (u.modPe e (fun p => { p with sites := v.truncate 4 })) := if_pos he

theorem setSpecial_eq_none {num : BitVec 8} (h6 : num ≠ 6) (h7 : num ≠ 7) (h11 : num ≠ 11 ∨ 64 ≤ e) (v : Word64) :
    u.setSpecial e num v = none := by
  have hne : ∀ k : BitVec 8, num ≠ k → num.toNat ≠ k.toNat := fun k hk he => hk (BitVec.eq_of_toNat_eq he)
  unfold State.setSpecial
  split
  · next he => exact absurd he (hne 6 h6)
  · next he => exact absurd he (hne 7 h7)
  · next he =>
    rcases h11 with h | h
    · exact absurd he (hne 11 h)
    · exact if_neg (by omega)
  · rfl

theorem sameSlots_setReg (y : Eng) (r : Gr) (v : Word64) : SameSlots y ((moved y).setReg r v) := by
  unfold Eng.setReg
  split <;> exact ⟨rfl, rfl, rfl, rfl, rfl⟩

section
variable {x : Iss} {r : Gr} {num : BitVec 8}

theorem actsIn_reg (u : State) (x : Iss) (r : Gr) : (actsIn u x.eng.val).reg x r = (u.eng x.eng.val).reg r := by
  simp [State.reg]

theorem opMvs_read {a : Word64} (h : specialOf u x.eng.val num = some a) :
    opMvs x false r num (actsIn u x.eng.val) = (actsIn u x.eng.val).setReg x r a := by
  simp [opMvs, actsIn_special, h]

theorem opMvs_read_illegal (h : specialOf u x.eng.val num = none) :
    opMvs x false r num (actsIn u x.eng.val) = (actsIn u x.eng.val).illegal x.eng.val (u.eng x.eng.val).pc := by
  simp [opMvs, actsIn_special, h]

theorem opMvs_write {t : State} (h : (actsIn u x.eng.val).setSpecial x.eng.val num ((u.eng x.eng.val).reg r) = some t) :
    opMvs x true r num (actsIn u x.eng.val) = t := by
  simp [opMvs, actsIn_reg, h]

theorem opMvs_write_illegal (h6 : num ≠ 6) (h7 : num ≠ 7) (h11 : num ≠ 11 ∨ 64 ≤ x.eng.val) :
    opMvs x true r num (actsIn u x.eng.val) = (actsIn u x.eng.val).illegal x.eng.val (u.eng x.eng.val).pc := by
  simp [opMvs, setSpecial_eq_none h6 h7 h11]

end

/-- The slot of an instruction that has changed PE e alone beside its engine. -/
theorem plainSlot_setPe (u : State) (e : Nat) (p : Pe) :
    EngIs u (((actsIn u e).setPe e p).plainSlot e) e (moved (u.eng e)) ∧
      (((actsIn u e).setPe e p).plainSlot e).pe e = p ∧
      (∀ n, n ≠ e → (((actsIn u e).setPe e p).plainSlot e).pe n = u.pe n) ∧
      { ((actsIn u e).setPe e p).plainSlot e with engs := u.engs, lanes := u.lanes, pes := u.pes } = u := by
  obtain ⟨he, hk, -⟩ := actsIn_engSet u e
  obtain ⟨g, l, hslot⟩ := plainSlot_enginesAndLanesOnly ((actsIn u e).setPe e p) e
  have hpe : ∀ n, (((actsIn u e).setPe e p).plainSlot e).pe n = if n = e then p else u.pe n := fun n => by
    rw [hslot]
    exact State.setPe_pe ..
  refine ⟨engIs_plainSlot he hk rfl ⟨rfl, rfl, rfl, rfl, rfl⟩, by simp [hpe], fun n hn => by simp [hpe, hn], ?_⟩
  rw [hslot]
  rfl

/-! Branches (R55, R94, R95) -/

/-- In the program memory (R65). -/
def InProgram (a : Int) : Prop := 0 ≤ a ∧ a ≤ 16383

theorem not_inProgram {a : Int} : ¬ InProgram a ↔ a < 0 ∨ 16383 < a := by
  unfold InProgram
  omega

/-- The engine after a FLOW instruction that leaves z but for the program counter. -/
def landed (y z : Eng) : Option Int → Eng
  | some a => goesTo { z with pc := y.pc } a
  | none => moved z

theorem sameSlots_landed (h : SameSlots y z) (target : Option Int) : SameSlots y (landed y z target) := by
  cases target <;> exact h

/-- What the action of a FLOW instruction of engine e leads to from u: where `ok` holds and the target, if any, lies in the
program memory, the engine has landed; else it is ILLEGAL at the instruction, which has changed its engine at most. -/
def Lands (u : State) (e : Nat) (ok : Prop) (target : Option Int) (z : Eng) (t : State) : Prop :=
  (ok → (∀ a, target = some a → InProgram a) → EngSet u t e (landed (u.eng e) z target)) ∧
  ((¬ ok ∨ ∃ a, target = some a ∧ ¬ InProgram a) → ∃ v y', EngSet u v e y' ∧ y'.timed = (u.eng e).timed ∧
    y'.rs = (u.eng e).rs ∧ t = v.illegal e (u.eng e).pc)

theorem EngSet.branch_inProgram {a : Int} (h : EngSet u v e y) (ha : InProgram a) :
    EngSet u (v.branch e a) e { y with pc := a.toNat } := by
  rw [show v.branch e a = v.modEng e (fun x => { x with pc := a.toNat }) from if_pos ha]
  exact h.modEng _

theorem EngSet.branch_illegal {a : Int} (h : EngSet u v e y) (ha : ¬ InProgram a) :
    v.branch e a = v.illegal e y.lastPc := by
  rw [show v.branch e a = v.illegal e (v.eng e).lastPc from if_neg ha, h.1]

/-- A branch taken, after a change of the engine's record that leaves its return stack. -/
theorem lands_branch (hv : EngSet u v e (moved z)) (hpc : z.pc = (u.eng e).pc) (htimed : z.timed = (u.eng e).timed)
    (hrs : z.rs = (u.eng e).rs) (a : Int) : Lands u e True (some a) z (v.branch e a) := by
  refine ⟨fun _ ha => ?_, fun ha => ⟨v, moved z, hv, htimed, hrs, ?_⟩⟩
  · simpa only [landed, goesTo, ← hpc] using hv.branch_inProgram (ha a rfl)
  · have hout : ¬ InProgram a := by simpa using ha
    rw [hv.branch_illegal hout, ← hpc]
    rfl

theorem lands_next (hv : EngSet u v e (moved z)) : Lands u e True none z v :=
  ⟨fun _ _ => hv, by simp⟩

theorem actsIn_relTarget (u : State) (e : Nat) (off : Word) : (actsIn u e).relTarget e off = (u.eng e).pc + off.toInt := by
  simp [State.relTarget]

theorem brcHolds_eq {md : BitVec 8} (h : brcOk md = true) (a : Word64) : brcHolds md a = brcOf md a := by
  have hmd : md.toNat ≤ 5 ∨ 64 ≤ md.toNat ∧ md.toNat ≤ 191 := by simpa [brcOk] using h
  rcases hmd with hsmall | ⟨hlo, hhi⟩
  · have hcase : md = 0 ∨ md = 1 ∨ md = 2 ∨ md = 3 ∨ md = 4 ∨ md = 5 := by bv_omega
    rcases hcase with rfl | rfl | rfl | rfl | rfl | rfl <;> simp [brcHolds, brcOf]
  · have hbig : ∀ k : BitVec 8, k.toNat ≤ 5 → md ≠ k := fun k hk he => by subst he; omega
    have hholds : brcHolds md a = if md.toNat < 128 then a.getLsbD (md.toNat % 64) else !a.getLsbD (md.toNat % 64) := by
      simp [brcHolds, hbig, bit]
    have hof : brcOf md a = if md.toNat < 128 then a.getLsbD (md.toNat - 64) else !a.getLsbD (md.toNat - 128) :=
      if_neg (by omega)
    rw [hholds, hof]
    split
    · rw [show md.toNat % 64 = md.toNat - 64 by omega]
    · rw [show md.toNat % 64 = md.toNat - 128 by omega]

theorem lands_call (u : State) (e : Nat) (a : Int) :
    Lands u e ((u.eng e).rs.length < 16) (some a) { u.eng e with rs := BitVec.ofNat 14 ((u.eng e).pc + 1) :: (u.eng e).rs }
      ((actsIn u e).callTo e a) := by
  have hacts := actsIn_engSet u e
  have hcall : (actsIn u e).callTo e a = if 16 ≤ (u.eng e).rs.length ∨ a < 0 ∨ 16383 < a
      then (actsIn u e).illegal e (u.eng e).pc
      else ((actsIn u e).setEng e { moved (u.eng e) with
        rs := BitVec.ofNat 14 ((u.eng e).pc + 1) :: (u.eng e).rs }).branch e a := by
    unfold State.callTo
    rw [actsIn_eng]
    rfl
  rw [hcall]
  refine ⟨fun hok ha => ?_, fun ha => ⟨_, _, hacts, rfl, rfl, if_pos ?_⟩⟩
  · have hin := ha a rfl
    rw [if_neg (by unfold InProgram at hin; omega)]
    exact (hacts.setEng _).branch_inProgram hin
  · rcases ha with hfull | ⟨b, hb, hout⟩
    · exact .inl (not_lt.mp hfull)
    · cases hb
      exact .inr (not_inProgram.mp hout)

theorem opRet_of_nil (h : (v.eng e).rs = []) : opRet e v = v.illegal e (v.eng e).lastPc := by
  simp [opRet, h]

theorem opRet_of_cons {a : BitVec 14} {r : List (BitVec 14)} (h : (v.eng e).rs = a :: r) :
    opRet e v = (v.setEng e { v.eng e with rs := r }).branch e a.toNat := by
  simp [opRet, h]

theorem lands_ret (u : State) (e : Nat) :
    Lands u e ((u.eng e).rs ≠ []) ((u.eng e).rs.head?.map fun t => (t.toNat : Int)) { u.eng e with rs := (u.eng e).rs.tail }
      (opRet e (actsIn u e)) := by
  have hacts := actsIn_engSet u e
  have hstack : ((actsIn u e).eng e).rs = (u.eng e).rs := by rw [actsIn_eng, moved_rs]
  cases hrs : (u.eng e).rs with
  | nil =>
    refine ⟨fun h => absurd rfl h, fun _ => ⟨_, _, hacts, rfl, rfl, ?_⟩⟩
    rw [opRet_of_nil (hstack.trans hrs), actsIn_eng, moved_lastPc]
  | cons a r =>
    have hin : InProgram (a.toNat : Int) := ⟨by omega, by have := a.isLt; omega⟩
    refine ⟨fun _ _ => ?_, by simp [hin]⟩
    rw [opRet_of_cons (hstack.trans hrs), actsIn_eng]
    exact (hacts.setEng _).branch_inProgram hin

/-- The record a LOOP leaves but for the program counter. -/
def looped (y : Eng) (c : Fin 8) : Eng := if y.ctr c = 0 then y else y.setCtr c (BitVec.ofNat 32 ((y.ctr c).toNat - 1))

theorem looped_of_ne_zero {c : Fin 8} (h : y.ctr c ≠ 0) : looped y c = y.setCtr c (y.ctr c - 1) := by
  have hdec : BitVec.ofNat 32 ((y.ctr c).toNat - 1) = y.ctr c - 1 := by bv_omega
  rw [looped, if_neg h, hdec]

theorem sameSlots_looped (y : Eng) (c : Fin 8) : SameSlots y (looped y c) := by
  unfold looped
  split <;> exact ⟨rfl, rfl, rfl, rfl, rfl⟩

theorem opLoop_of_zero {c : Fin 8} (h : (v.eng e).ctr c = 0) (off : Word) : opLoop e c off v = v := if_pos h

theorem opLoop_of_one {c : Fin 8} (h : (v.eng e).ctr c = 1) (off : Word) :
    opLoop e c off v = v.modEng e (fun y => y.setCtr c ((v.eng e).ctr c - 1)) := by
  simp [opLoop, h, State.iff]

theorem opLoop_of_branch {c : Fin 8} (h0 : (v.eng e).ctr c ≠ 0) (h1 : (v.eng e).ctr c ≠ 1) (off : Word) :
    opLoop e c off v = (v.modEng e (fun y => y.setCtr c ((v.eng e).ctr c - 1))).branch e
      ((v.modEng e (fun y => y.setCtr c ((v.eng e).ctr c - 1))).relTarget e off) :=
  (if_neg h0).trans (if_pos (decide_eq_true h1))

theorem lands_loop (u : State) (e : Nat) (c : Fin 8) (off : Word) :
    Lands u e True (if 1 < ((u.eng e).ctr c).toNat then some ((u.eng e).pc + off.toInt) else none) (looped (u.eng e) c)
      (opLoop e c off (actsIn u e)) := by
  have hacts := actsIn_engSet u e
  have hctr : ((actsIn u e).eng e).ctr c = (u.eng e).ctr c := by rw [actsIn_eng, moved_ctr]
  by_cases h0 : (u.eng e).ctr c = 0
  · rw [opLoop_of_zero (hctr.trans h0), looped, if_pos h0, if_neg (by simp [h0])]
    exact lands_next hacts
  have hset : EngSet u ((actsIn u e).modEng e fun y => y.setCtr c (((actsIn u e).eng e).ctr c - 1)) e
      (moved (looped (u.eng e) c)) := by
    rw [hctr, looped_of_ne_zero h0]
    exact hacts.modEng _
  by_cases h1 : (u.eng e).ctr c = 1
  · rw [opLoop_of_one (hctr.trans h1), if_neg (by simp [h1])]
    exact lands_next hset
  · have hloop : looped (u.eng e) c = _ := looped_of_ne_zero h0
    have htarget : State.relTarget ((actsIn u e).modEng e fun y => y.setCtr c (((actsIn u e).eng e).ctr c - 1)) e off =
        (u.eng e).pc + off.toInt := by
      unfold State.relTarget
      rw [hset.1, hloop]
      rfl
    rw [opLoop_of_branch (by rwa [hctr]) (by rwa [hctr]), htarget, if_pos (by bv_omega)]
    exact lands_branch hset (by rw [hloop]; rfl) (by rw [hloop]; rfl) (by rw [hloop]; rfl) _

/-- Every FLOW instruction that `flowOf` speaks of issues, and its action lands where `flowOf` says. -/
theorem flow_lands {s : State} {i : Instr} {x : Iss} {f : Form} {target : Option Int} (hform : formA s i = some (x, f))
    (hok : f.ok = true) (hflow : flowOf (u.eng x.eng.val) i = some (target, z)) :
    ∃ body, exec i s = .next (s.issue x f body) ∧ f.vec = none ∧ f.keepAt = false ∧ SameSlots (u.eng x.eng.val) z ∧
      Lands u x.eng.val (StackOk (u.eng x.eng.val) i) target z (body (actsIn u x.eng.val)) := by
  have hacts := actsIn_engSet u x.eng.val
  have hslots := SameSlots.refl (u.eng x.eng.val)
  unfold flowOf at hflow
  split at hflow
  case h_8 => cases hflow
  all_goals
    obtain ⟨rfl, rfl⟩ := Prod.mk.inj (Option.some.inj hflow)
    obtain ⟨rfl, rfl⟩ := Prod.mk.inj (Option.some.inj hform)
  -- BR
  case h_1 x off =>
    refine ⟨_, rfl, rfl, rfl, hslots, ?_⟩
    rw [actsIn_relTarget]
    exact lands_branch hacts rfl rfl rfl _
  -- BRC
  case h_2 x ra md off =>
    refine ⟨_, rfl, rfl, rfl, hslots, ?_⟩
    rw [actsIn_reg, brcHolds_eq hok]
    cases brcOf md ((u.eng x.eng.val).reg ra) with
    | true =>
      rw [State.iff, if_pos rfl, if_pos rfl, actsIn_relTarget]
      exact lands_branch hacts rfl rfl rfl _
    | false => exact lands_next hacts
  -- LOOP
  case h_3 x c off => exact ⟨_, rfl, rfl, rfl, sameSlots_looped _ c, lands_loop u _ c off⟩
  -- CALL
  case h_4 x off =>
    refine ⟨_, rfl, rfl, rfl, hslots, ?_⟩
    rw [actsIn_relTarget]
    exact lands_call u _ _
  -- CALLR
  case h_5 x ra =>
    refine ⟨_, rfl, rfl, rfl, hslots, ?_⟩
    rw [actsIn_reg]
    exact lands_call u _ _
  -- BRR
  case h_6 x ra =>
    refine ⟨_, rfl, rfl, rfl, hslots, ?_⟩
    rw [actsIn_reg]
    exact lands_branch hacts rfl rfl rfl _
  -- RET
  case h_7 x => exact ⟨_, rfl, rfl, rfl, hslots, lands_ret u _⟩

end

/-! The obligations -/

/-- Settles O5: `flow_lands` says where each instruction lands or that it is ILLEGAL; the issue adds its slot and its path. -/
theorem branchesGoToTheirTarget : Obligations.BranchesGoToTheirTarget := by
  unfold Obligations.BranchesGoToTheirTarget
  intro s i x f target z hform hissues u y hflow
  obtain ⟨body, hexec, hvec, hkeep, hslots, hlands, hillegal⟩ := flow_lands hform hissues.operandsOk hflow
  refine ⟨fun hstack hin => ⟨_, hexec, ?_⟩, fun hout => ⟨_, hexec, ?_⟩⟩
  · have hengIs := issue_engIs hissues hvec hkeep rfl (hlands hstack hin) (sameSlots_landed hslots target)
    cases target <;> exact hengIs
  · obtain ⟨v, y', hv, htimed, hrs, hbody⟩ :=
      hillegal (hout.imp_right fun ⟨a, ha, hrange⟩ => ⟨a, ha, not_inProgram.mpr hrange⟩)
    exact issue_stops hissues hvec hkeep rfl hv htimed hrs hbody

/-- Settles O7, by the value that MVS reads and the number that it writes; an issue adds the slot. -/
theorem mvsMovesSpecialRegisters : Obligations.MvsMovesSpecialRegisters := by
  unfold Obligations.MvsMovesSpecialRegisters
  intro s x r num e u y
  have hacts : EngSet u (actsIn u e) e (moved y) := actsIn_engSet u e
  refine ⟨fun hi => ⟨fun a ha => ?_, fun ha => ?_⟩,
    fun hi => ⟨fun h6 => ?_, fun h7 => ?_, fun h11 he => ?_, fun h6 h7 h11 => ?_⟩⟩
  · refine ⟨_, rfl, issue_becomes hi rfl rfl rfl rfl ?_ (sameSlots_setReg y r a)⟩
    rw [opMvs_read ha]
    exact hacts.modEng _
  · obtain ⟨hstop, -, hraise⟩ := issue_stops hi rfl rfl rfl hacts rfl rfl (opMvs_read_illegal ha)
    exact ⟨_, rfl, hstop, hraise⟩
  · subst h6
    refine ⟨_, rfl, issue_becomes hi rfl rfl rfl rfl ?_ ⟨rfl, rfl, rfl, rfl, rfl⟩⟩
    rw [opMvs_write rfl]
    exact hacts.modEng _
  · subst h7
    refine ⟨_, rfl, issue_becomes hi rfl rfl rfl rfl ?_ ⟨rfl, rfl, rfl, rfl, rfl⟩⟩
    rw [opMvs_write rfl]
    exact hacts.modEng _
  · subst h11
    have hslot : s.issue x (frm 1 [r] []) (opMvs x true r 11) =
        ((actsIn u e).setPe e { u.pe e with sites := (y.reg r).truncate 4 }).plainSlot e := by
      rw [issue_eq_path hi rfl rfl rfl, path_of_no_target rfl, opMvs_write (setSpecial_sites he _)]
      rfl
    exact ⟨_, congrArg Host.Outcome.next hslot, plainSlot_setPe ..⟩
  · obtain ⟨hstop, -, hraise⟩ := issue_stops hi rfl rfl rfl hacts rfl rfl (opMvs_write_illegal h6 h7 h11)
    exact ⟨_, rfl, hstop, hraise⟩

end Sys2Proof.Machine
end
